-- ==== Sys2Proof/Word.lean ====
section
/-! DEFINITION. The words of the two instruction formats: the 74-bit request word (30_encoding.md R61) and the
48-bit CommandFrame word (30_encoding.md R66, opcode_table.json FRAME48), and the byte. -/

namespace Sys2Proof

/-- A byte is an 8-bit vector (00_scope.md R7). -/
abbrev Byte := BitVec 8

/-- A request word `q[73:0]` (30_encoding.md R61). -/
abbrev RequestWord := BitVec 74

/-- A CommandFrame read as one number `f[47:0]`, byte0 in `f[47:40]` and the opcode in `f[7:0]`. -/
abbrev FrameWord := BitVec 48

/-- An instruction as it is presented to the machine. A device command is its frame and the byte that follows the
frame, which only SetOrientation uses (43_device_commands.md R127); log entry 12. -/
inductive Word where
  | request (q : RequestWord)
  | command (f : FrameWord) (after : Byte)
  deriving DecidableEq, Repr

end Sys2Proof
end

