-- ==== Sys2Proof/Config.lean ====
section
/-! DEFINITION. What a build fixes and what the spec leaves open: the parameters of 00_scope.md R6 that the model
computes with, the two OPEN parameters as constants without a value, and the free values. -/

namespace Sys2Proof

/-- The host's order of a ColorWord's two bytes on the wire (20_memory.md R44). -/
inductive PixelWireOrder where
  | le
  | be
  deriving DecidableEq, Repr, Inhabited

/-- Where the orientation byte of a SetOrientation message stands (43_device_commands.md R127). -/
inductive OrientParamSlot where
  | p1
  | trailingByte
  deriving DecidableEq, Repr, Inhabited

namespace Config

/-- `R_MAX` and `B_MAX` (00_scope.md R6). -/
def redBlueMax : Nat := 31

/-- `G_MAX` (00_scope.md R6). -/
def greenMax : Nat := 63

/-- The base dimensions, 320 by 480 (00_scope.md R6; 10_state.md R32). -/
def baseWidth : Nat := 320

def baseHeight : Nat := 480

/-- OPEN parameter `PIXEL_WIRE_ORDER` (92_eei_decisions.md D9); log entry 4. It has no value in the model. -/
opaque pixelWireOrder : PixelWireOrder

/-- OPEN parameter `ORIENT_PARAM_SLOT` (92_eei_decisions.md D16); log entry 5. It has no value in the model. -/
opaque orientParamSlot : OrientParamSlot

/-- Free value: how many leading bytes of the failing write number `n` reached the device (20_memory.md R54,
92_eei_decisions.md D19); log entry 6. -/
opaque failedPrefix : Nat → Nat

/-- Free value: how many leading bytes of the hung write number `n` reached the device (60_exceptions.md R158);
log entry 7. -/
opaque hungPrefix : Nat → Nat

end Config
end Sys2Proof
end

