-- ==== Sys2Proof/Syntax.lean ====
section
/-! DEFINITION. The instructions: one constructor for each row of spec/opcode_table.json, in the table's order. -/

namespace Sys2Proof

inductive Instr where
  /-- PACKCMD (41_frame_encoder.md R82): the request fields of REQ_CMD. -/
  | packCmd (opcode : Byte) (p1 p2 p3 p4 : BitVec 16)
  /-- PACKU16 (41_frame_encoder.md R88). -/
  | packU16 (n : BitVec 16)
  /-- PACKCOLOR (42_color_converter.md R102). -/
  | packColor (r g b : Byte)
  /-- The reserved request operation 11 (30_encoding.md R64). -/
  | reservedOp11
  /-- Reset 0xFF (43_device_commands.md R121). -/
  | reset
  /-- Clear 0x66 (R122). -/
  | clear
  /-- ToBlack 0x67 (R123). -/
  | toBlack
  /-- ScreenOff 0x6C (R124). -/
  | screenOff
  /-- ScreenOn 0x6D (R125). -/
  | screenOn
  /-- SetBrightness 0x6E (R126): the table fixes the opcode byte only. -/
  | setBrightness (p1 p2 p3 p4 : BitVec 10)
  /-- SetOrientation 0x79 (R127): the frame's parameters and the byte after the frame. -/
  | setOrientation (p1 p2 p3 p4 : BitVec 10) (after : Byte)
  /-- Geometry reset 0x7A (R128). -/
  | geometryReset
  /-- DisplayBitmap 0xC5 (R129): the Rectangle as the frame carries it. -/
  | displayBitmap (x y x2 y2 : BitVec 10)
  deriving DecidableEq, Repr

end Sys2Proof
end

