-- ==== Sys2Proof/WellFormed.lean ====
section
/-! DEFINITION. Which instructions are well formed. Every operand of the FCE's own operations is accepted
(60_exceptions.md R151, R154), and the table leaves the parameters of SetBrightness and DisplayBitmap free; the one
instruction with a form to check is SetOrientation (43_device_commands.md R127). -/

namespace Sys2Proof

/-- The four values of the orientation byte `0x64 | reverseFlag | orientationFlag` (R127). -/
def isOrientationByte (f : Byte) : Bool :=
  f == 0x64#8 || f == 0x65#8 || f == 0x66#8 || f == 0x67#8

/-- The instruction carries its orientation byte as parameter p1, and nothing after the frame. -/
def orientationInP1 (p1 : BitVec 10) (after : Byte) : Bool :=
  p1.extractLsb' 8 2 == 0#2 && isOrientationByte (p1.extractLsb' 0 8) && after == 0#8

/-- The instruction carries its orientation byte after a frame whose p1 is 0. -/
def orientationAfter (p1 : BitVec 10) (after : Byte) : Bool :=
  p1 == 0#10 && isOrientationByte after

/-- R127: exactly one orientation byte, in one of the two places, and p2, p3, p4 all 0. -/
def wellFormedOrientation (p1 p2 p3 p4 : BitVec 10) (after : Byte) : Bool :=
  (orientationInP1 p1 after || orientationAfter p1 after) && p2 == 0#10 && p3 == 0#10 && p4 == 0#10

def Instr.wellFormed : Instr → Bool
  | .packCmd _ _ _ _ _ => true
  | .packU16 _ => true
  | .packColor _ _ _ => true
  | .reservedOp11 => true
  | .reset => true
  | .clear => true
  | .toBlack => true
  | .screenOff => true
  | .screenOn => true
  | .setBrightness _ _ _ _ => true
  | .setOrientation p1 p2 p3 p4 after => wellFormedOrientation p1 p2 p3 p4 after
  | .geometryReset => true
  | .displayBitmap _ _ _ _ => true

end Sys2Proof
end

