-- ==== Sys2Proof/Decode.lean ====
section
/-! DEFINITION. Decoding and encoding. A request word is decoded by its operation field alone (30_encoding.md R61 to
R64); a command word by byte5 of its frame (30_encoding.md R66, R71, R72), its parameters by the unpacking of
41_frame_encoder.md R85. -/

namespace Sys2Proof

/-- Why a command word is no device command. -/
inductive Reject where
  /-- byte5 is none of the nine listed opcodes: a wire model refuses the frame (30_encoding.md R72). -/
  | unlistedOpcode (opcode : Byte)
  /-- A parameter-free command whose frame carries a parameter (43_device_commands.md R121 to R125, R128). -/
  | parametersNotZero
  /-- A byte after the frame of a command that has no operand there (log entry 12). -/
  | strayByte
  deriving DecidableEq, Repr

/-- 30_encoding.md R61: the operation field is `q[73:72]`. -/
def RequestWord.op (q : RequestWord) : BitVec 2 := q.extractLsb' 72 2

/-- 30_encoding.md R61, R62: total on every 74-bit word; no bit but the operation field selects the operation. -/
def decodeRequest (q : RequestWord) : Instr :=
  if RequestWord.op q = 0#2 then
    .packCmd (q.extractLsb' 64 8) (q.extractLsb' 48 16) (q.extractLsb' 32 16) (q.extractLsb' 16 16)
      (q.extractLsb' 0 16)
  else if RequestWord.op q = 1#2 then .packU16 (q.extractLsb' 0 16)
  else if RequestWord.op q = 2#2 then
    .packColor (q.extractLsb' 16 8) (q.extractLsb' 8 8) (q.extractLsb' 0 8)
  else .reservedOp11

/-- opcode_table.json FRAME48: `p1 = f[47:38]`. -/
def FrameWord.p1 (f : FrameWord) : BitVec 10 := f.extractLsb' 38 10

/-- `p2 = f[37:28]`. -/
def FrameWord.p2 (f : FrameWord) : BitVec 10 := f.extractLsb' 28 10

/-- `p3 = f[27:18]`. -/
def FrameWord.p3 (f : FrameWord) : BitVec 10 := f.extractLsb' 18 10

/-- `p4 = f[17:8]`. -/
def FrameWord.p4 (f : FrameWord) : BitVec 10 := f.extractLsb' 8 10

/-- `opcode = f[7:0]`. -/
def FrameWord.opcode (f : FrameWord) : Byte := f.extractLsb' 0 8

/-- A command whose row fixes all 48 bits: bytes 0 to 4 are 0x00 (30_encoding.md R70). -/
def decodeParameterFree (f : FrameWord) (i : Instr) : Except Reject Instr :=
  if f.extractLsb' 8 40 = 0#40 then .ok i else .error .parametersNotZero

/-- A command with no operand after its frame. -/
def decodeFrameOnly (f : FrameWord) : Except Reject Instr :=
  if FrameWord.opcode f = 0xFF#8 then decodeParameterFree f .reset
  else if FrameWord.opcode f = 0x66#8 then decodeParameterFree f .clear
  else if FrameWord.opcode f = 0x67#8 then decodeParameterFree f .toBlack
  else if FrameWord.opcode f = 0x6C#8 then decodeParameterFree f .screenOff
  else if FrameWord.opcode f = 0x6D#8 then decodeParameterFree f .screenOn
  else if FrameWord.opcode f = 0x7A#8 then decodeParameterFree f .geometryReset
  else if FrameWord.opcode f = 0x6E#8 then
    .ok (.setBrightness (FrameWord.p1 f) (FrameWord.p2 f) (FrameWord.p3 f) (FrameWord.p4 f))
  else if FrameWord.opcode f = 0xC5#8 then
    .ok (.displayBitmap (FrameWord.p1 f) (FrameWord.p2 f) (FrameWord.p3 f) (FrameWord.p4 f))
  else .error (.unlistedOpcode (FrameWord.opcode f))

/-- 30_encoding.md R71, R72. -/
def decodeCommand (f : FrameWord) (after : Byte) : Except Reject Instr :=
  if FrameWord.opcode f = 0x79#8 then
    .ok (.setOrientation (FrameWord.p1 f) (FrameWord.p2 f) (FrameWord.p3 f) (FrameWord.p4 f) after)
  else
    match decodeFrameOnly f with
    | .ok i => if after = 0#8 then .ok i else .error .strayByte
    | .error e => .error e

/-- The decoder. It is total: a request word always decodes, a command word decodes or is rejected by name. -/
def decode : Word → Except Reject Instr
  | .request q => .ok (decodeRequest q)
  | .command f after => decodeCommand f after

/-- The CommandFrame word of 30_encoding.md R66: `p1 ++ p2 ++ p3 ++ p4 ++ opcode`. -/
def frameWord (opcode : Byte) (p1 p2 p3 p4 : BitVec 10) : FrameWord :=
  p1 ++ p2 ++ p3 ++ p4 ++ opcode

/-- The encoder: the formats of 30_encoding.md R61 and R66, unused bits 0 (30_encoding.md R74). -/
def encode : Instr → Word
  | .packCmd opcode p1 p2 p3 p4 => .request (0#2 ++ opcode ++ p1 ++ p2 ++ p3 ++ p4)
  | .packU16 n => .request (1#2 ++ 0#56 ++ n)
  | .packColor r g b => .request (2#2 ++ 0#48 ++ r ++ g ++ b)
  | .reservedOp11 => .request (3#2 ++ 0#72)
  | .reset => .command (frameWord 0xFF#8 0 0 0 0) 0#8
  | .clear => .command (frameWord 0x66#8 0 0 0 0) 0#8
  | .toBlack => .command (frameWord 0x67#8 0 0 0 0) 0#8
  | .screenOff => .command (frameWord 0x6C#8 0 0 0 0) 0#8
  | .screenOn => .command (frameWord 0x6D#8 0 0 0 0) 0#8
  | .setBrightness p1 p2 p3 p4 => .command (frameWord 0x6E#8 p1 p2 p3 p4) 0#8
  | .setOrientation p1 p2 p3 p4 after => .command (frameWord 0x79#8 p1 p2 p3 p4) after
  | .geometryReset => .command (frameWord 0x7A#8 0 0 0 0) 0#8
  | .displayBitmap x y x2 y2 => .command (frameWord 0xC5#8 x y x2 y2) 0#8

/-- The word of a row of opcode_table.json whose bits are the number `w`, bit 0 the least significant. A row of 74
bits or more is a request word, whose bits 75 and 74 are 0 (95_test_vectors.md); a shorter one is a frame, read as
one number with the opcode lowest, and the bits above it are the byte after the frame; log entry 20. -/
def tableWord (nbits w : Nat) : Option Word :=
  if nbits < 74 then
    if w < 2 ^ 56 then some (.command (BitVec.ofNat 48 w) (BitVec.ofNat 8 (w / 2 ^ 48))) else none
  else if w < 2 ^ 74 then some (.request (BitVec.ofNat 74 w)) else none

/-- The instruction the decoder reads from a row's bits, numbered as opcode_table.json numbers them. -/
def decodeTableWord (nbits w : Nat) : Option Instr :=
  match tableWord nbits w with
  | none => none
  | some word =>
    match decode word with
    | .ok i => some i
    | .error _ => none

end Sys2Proof
end

