-- ==== Sys2Proof/Machine/State.lean ====
section
/-! DEFINITION. The state of the machine as plain data: the ports of the FCE, the host session around it, the wire, and
the inputs from outside. The FCE itself holds none (10_state.md R21); INVENTORY.md lists every field with its rule. -/

namespace Sys2Proof.Machine

/-- The input ports of the FCE (10_state.md R26). They keep what the host last drove on them; log entry 2. -/
structure InPorts where
  cmdOpcode : Byte
  cmdP1 : BitVec 16
  cmdP2 : BitVec 16
  cmdP3 : BitVec 16
  cmdP4 : BitVec 16
  u16N : BitVec 16
  colR : Byte
  colG : Byte
  colB : Byte
  deriving DecidableEq, Repr

/-- A request: one operation of the FCE and its inputs (00_scope.md R12, 30_encoding.md R61). -/
inductive Request where
  | cmd (opcode : Byte) (p1 p2 p3 p4 : BitVec 16)
  | u16 (n : BitVec 16)
  | color (r g b : Byte)
  deriving DecidableEq, Repr

/-- The CommandFrame bytes; `b0` is first on the wire (00_scope.md R10, 30_encoding.md R66). -/
structure CommandFrame where
  b0 : Byte
  b1 : Byte
  b2 : Byte
  b3 : Byte
  b4 : Byte
  b5 : Byte
  deriving DecidableEq, Repr

/-- A response (30_encoding.md R65): six frame bytes, two bytes, or one 16-bit word. -/
inductive Response where
  | frame (f : CommandFrame)
  | u16 (b0 b1 : Byte)
  | color (c : BitVec 16)
  deriving DecidableEq, Repr

/-- One RGB888 sample of the Image Decoder (42_color_converter.md R111). -/
structure Rgb where
  r : Byte
  g : Byte
  b : Byte
  deriving DecidableEq, Repr

/-- A decoded image: its width, and its rows from top to bottom, each its samples in column order. -/
structure Image where
  width : Nat
  rows : List (List Rgb)
  deriving DecidableEq, Repr

/-- What the Image Decoder returns for one displayBitmap call (43_device_commands.md R133). -/
inductive Decoded where
  | image (img : Image)
  | failed
  deriving DecidableEq, Repr

/-- One displayBitmap call (43_device_commands.md R133, R134): where the host draws the image, as its own integers
(92_eei_decisions.md D20), and what the Image Decoder returns for it. -/
structure BitmapCall where
  x : Int
  y : Int
  decoded : Decoded
  deriving DecidableEq, Repr

/-- 10_state.md R31. -/
inductive Orientation where
  | portrait
  | landscape
  deriving DecidableEq, Repr

/-- DisplayState (10_state.md R31), in device pixels as currently oriented. -/
structure DisplayState where
  width : Nat
  height : Nat
  orientation : Orientation
  reverse : Bool
  deriving DecidableEq, Repr

/-- The session's control state (10_state.md R30). -/
inductive Session where
  | uninitialized
  | ready
  | failed
  deriving DecidableEq, Repr

inductive Parity where
  | none
  | odd
  | even
  deriving DecidableEq, Repr

/-- The parameters the Transport is opened with (43_device_commands.md R136). -/
structure TransportParams where
  path : String
  baud : Nat
  dataBits : Nat
  stopBits : Nat
  parity : Parity
  deriving DecidableEq, Repr

/-- What the Transport does with one write (20_memory.md R54, 60_exceptions.md R158). -/
inductive WriteFate where
  | completes
  | fails
  | hangs
  deriving DecidableEq, Repr

/-- The kinds of host write (43_device_commands.md R132). A bitmap header is kept with the number of rows that
follow it (R129). -/
inductive MessageKind where
  | reset
  | clear
  | toBlack
  | screenOff
  | screenOn
  | setOrientation (o : Orientation) (reverse : Bool)
  | geometryReset
  | bitmapHeader (height : Nat)
  | row
  deriving DecidableEq, Repr

/-- One host write: its kind, the bytes that reached the wire, and how it ended (20_memory.md R50, R54). -/
structure Written where
  kind : MessageKind
  bytes : List Byte
  fate : WriteFate
  deriving DecidableEq, Repr

/-- The host errors of 60_exceptions.md R157. The FCE raises none of them. -/
inductive HostError where
  /-- Bad input, caught before the core: the assembler answers it (30_encoding.md R74). -/
  | validationError
  /-- Unsupported or corrupt image data. -/
  | decodeError
  /-- Serial I/O failure. -/
  | transportError
  deriving DecidableEq, Repr

/-- What a finished host operation answers (43_device_commands.md R133). -/
inductive HostResult where
  | success
  | error (e : HostError)
  deriving DecidableEq, Repr

/-- Whose turn a step is: the owner of the operation in progress, or another caller that does not wait for it
(60_exceptions.md R162); log entry 11. -/
inductive Agent where
  | owner
  | caller
  deriving DecidableEq, Repr

structure State where
  /-- The FCE's input ports (10_state.md R26). -/
  ports : InPorts
  /-- The responses of the run, oldest first (00_scope.md R12). -/
  responses : List Response
  /-- 10_state.md R30. -/
  session : Session
  /-- 10_state.md R31; absent while unspecified (10_state.md R34). -/
  display : Option DisplayState
  /-- The open Transport's parameters; absent while it is closed (70_reset_and_hazards.md R174). -/
  transport : Option TransportParams
  /-- Every host write so far, oldest first (20_memory.md R49, R50). -/
  wire : List Written
  /-- A write is in flight that never completes (60_exceptions.md R158). -/
  hung : Bool
  /-- The rows of the bitmap in progress still to be written, top first (43_device_commands.md R129). -/
  raster : List (List Rgb)
  /-- What the last finished host operation answered (43_device_commands.md R133). -/
  result : Option HostResult
  /-- The words of the operation in progress still to be issued (43_device_commands.md R130, R131). -/
  current : List Word
  /-- Input: the host's operations still to be run (10_state.md R23). -/
  program : List (List Word)
  /-- Input: the displayBitmap calls, in order (log entry 13). -/
  bitmaps : List BitmapCall
  /-- Input: what the Transport does with the coming writes; an empty list completes them (log entry 8). -/
  fates : List WriteFate
  /-- Input: opening the Transport fails (60_exceptions.md R157; log entry 9). -/
  openFails : Bool
  /-- Input: the path the host gives when it opens the Transport (43_device_commands.md R136; log entry 27). -/
  openPath : String
  /-- Input: whose turn the coming steps are; an empty list is the owner's turn (log entry 11). -/
  turns : List Agent
  /-- The model's own counter: the index of the next free value (log entry 6). -/
  draws : Nat
  deriving DecidableEq, Repr

/-- Why the machine stops with a fault. Each is a fault of the host; the FCE raises none (60_exceptions.md R151). -/
inductive Fault where
  /-- Raised by every device command and row on a Failed session: the source gives no transition out of it, so it is
  stuck (10_state.md R30; 93_implementation_defined.md U14). Safe. -/
  | sessionFailed
  /-- Raised by step on a device command of another operation while one is in progress, whoever issues it, and on a
  message that does not belong to the operation in progress (70_reset_and_hazards.md R178, 60_exceptions.md R162; U17).
  Safe. -/
  | operationInFlight
  /-- Raised by reading DisplayState before the first successful setOrientation (10_state.md R34; U11). Safe. -/
  | displayUnspecified
  deriving DecidableEq, Repr

/-- Why the machine refuses an instruction. -/
inductive Refusal where
  /-- An instruction that has no meaning yet, by its mnemonic. Safe. -/
  | notModelled (mnemonic : String)
  /-- Raised by step on a command word that is no device command (30_encoding.md R72). Safe. -/
  | undecodable (why : Reject)
  /-- Raised by the reserved request operation 11 (30_encoding.md R64). Safe. -/
  | reservedOperation
  /-- Raised by SetBrightness, whose layout has no source (43_device_commands.md R126). Safe. -/
  | brightnessLayout
  /-- Raised by step on a stream that does not begin with the three init messages (70_reset_and_hazards.md R174;
  U18). Safe. -/
  | beforeInit
  /-- Raised by step on a Reset message that is not the first of its session, so on a second init of a Ready session:
  the model's choice (log entry 26). Safe. -/
  | resetAfterInit
  /-- Raised by step on a SetOrientation message that no geometry reset precedes (70_reset_and_hazards.md R179; log
  entry 15). Safe. -/
  | handshakeMissing
  /-- A row with no bitmap header before it; no instruction is one, so no step raises it (43_device_commands.md
  R129). Safe. -/
  | strayRow
  /-- Raised by SetOrientation when it carries no orientation byte of 43_device_commands.md R127 (log entry 12).
  Safe. -/
  | orientationByte
  /-- Raised by DisplayBitmap when no displayBitmap call is waiting, so there is nothing to decode (log entry 13).
  Safe. -/
  | noImage
  /-- Raised by DisplayBitmap on an image of width or height 0 (92_eei_decisions.md D27; U16). Safe. -/
  | zeroSizeImage
  /-- Raised by DisplayBitmap when the header is not the Rectangle of the decoded image (43_device_commands.md R129,
  R134; log entry 13). Safe. -/
  | notTheRectangle
  /-- Raised by a device command other than Reset while the Transport is closed (70_reset_and_hazards.md R174; log
  entry 9). Safe. -/
  | transportClosed
  deriving DecidableEq, Repr

/-- What a meaning answers. -/
abbrev Result := Host.Outcome State Fault Refusal

/-- Log entry 2: the spec gives the ports no value before the host drives them. -/
def InPorts.reset : InPorts :=
  { cmdOpcode := 0, cmdP1 := 0, cmdP2 := 0, cmdP3 := 0, cmdP4 := 0, u16N := 0, colR := 0, colG := 0, colB := 0 }

/-- The machine right after reset: the session Uninitialized and DisplayState unspecified (10_state.md R34,
70_reset_and_hazards.md R173), the Transport closed, nothing written, nothing presented. -/
def State.reset : State :=
  { ports := InPorts.reset
    responses := []
    session := .uninitialized
    display := none
    transport := none
    wire := []
    hung := false
    raster := []
    result := none
    current := []
    program := []
    bitmaps := []
    fates := []
    openFails := false
    openPath := ""
    turns := []
    draws := 0 }

end Sys2Proof.Machine
end

