-- ==== Sys2Proof/Machine/Operands.lean ====
section
/-! DEFINITION. Operand assembly (30_encoding.md R69, R70; 92_eei_decisions.md D20): how a host value reaches a port,
how a port value reaches a field, and the Rectangle (43_device_commands.md R134). -/

namespace Sys2Proof.Machine

/-- `pN[9:0]` (30_encoding.md R69): bits 15 to 10 of a parameter port are discarded. -/
def meaningfulBits (p : BitVec 16) : BitVec 10 := p.extractLsb' 0 10

/-- A host integer on a 16-bit port: the low 16 bits of its two's complement (92_eei_decisions.md D20). -/
def portOfInt (n : Int) : BitVec 16 := BitVec.ofInt 16 n

/-- What a frame keeps of a host integer: the low 10 bits of its port value (41_frame_encoder.md R90). -/
def fieldOfInt (n : Int) : BitVec 10 := meaningfulBits (portOfInt n)

/-- The Rectangle (x, y, x + w - 1, y + h - 1); nothing is clipped (43_device_commands.md R134). -/
def rectangle (x y : Int) (w h : Nat) : Int × Int × Int × Int := (x, y, x + w - 1, y + h - 1)

/-- The dimensions of the display for an orientation, always from the base dimensions (10_state.md R32). -/
def dimensions : Orientation → Nat × Nat
  | .portrait => (Config.baseWidth, Config.baseHeight)
  | .landscape => (Config.baseHeight, Config.baseWidth)

/-- The DisplayState a successful setOrientation leaves (43_device_commands.md R130). -/
def displayFor (o : Orientation) (reverse : Bool) : DisplayState :=
  { width := (dimensions o).1, height := (dimensions o).2, orientation := o, reverse := reverse }

/-- The image has a sample for every column of every row. -/
def Image.wf (img : Image) : Bool := img.rows.all fun row => row.length == img.width

/-- The decoded image's height. -/
def Image.height (img : Image) : Nat := img.rows.length

/-- The header's parameters are the Rectangle of the image drawn at (px, py), in the 10 bits a frame keeps
(43_device_commands.md R129, R134), and no row is short or long. -/
def Image.fills (img : Image) (px py : Int) (x y x2 y2 : BitVec 10) : Bool :=
  let r := rectangle px py img.width img.height
  img.wf && x == fieldOfInt r.1 && y == fieldOfInt r.2.1 && x2 == fieldOfInt r.2.2.1 && y2 == fieldOfInt r.2.2.2

/-- The parameters the host opens the Transport at a path with (43_device_commands.md R136). -/
def TransportParams.host (path : String) : TransportParams :=
  { path := path, baud := 9600, dataBits := 8, stopBits := 1, parity := .none }

end Sys2Proof.Machine
end

