-- ==== Sys2Proof/Machine/ColorCodec.lean ====
section
/-! DEFINITION. The Color Codec as a function of the ports (42_color_converter.md), and the host's serialisation of a
ColorWord (20_memory.md R44). -/

namespace Sys2Proof.Machine

/-- `scale(c, max) = (c * max) div 255`, exact (42_color_converter.md R103). -/
def scale (c : Byte) (max : Nat) : Nat := c.toNat * max / 255

/-- `red[4:0] ++ green[5:0] ++ blue[4:0]` (42_color_converter.md R102, 30_encoding.md R68). -/
def packColorWord (r g b : Byte) : BitVec 16 :=
  BitVec.ofNat 5 (scale r Config.redBlueMax) ++ BitVec.ofNat 6 (scale g Config.greenMax) ++
    BitVec.ofNat 5 (scale b Config.redBlueMax)

/-- `LE` sends `[color[7:0], color[15:8]]`, `BE` sends `[color[15:8], color[7:0]]` (20_memory.md R44). -/
def serializeColor : PixelWireOrder → BitVec 16 → List Byte
  | .le, c => [c.extractLsb' 0 8, c.extractLsb' 8 8]
  | .be, c => [c.extractLsb' 8 8, c.extractLsb' 0 8]

end Sys2Proof.Machine
end

