-- ==== Sys2Proof/Machine/Flags.lean ====
section
/-! DEFINITION. The FCE has no flag (10_state.md R24), so no operation computes one. The only flags of the spec are the
two inside the orientation byte (43_device_commands.md R127), computed and read here. -/

namespace Sys2Proof.Machine

/-- `orientationFlag` (R127). -/
def orientationFlag : Orientation → Byte
  | .landscape => 0x02#8
  | .portrait => 0x00#8

/-- `reverseFlag` (R127). -/
def reverseFlag : Bool → Byte
  | true => 0x01#8
  | false => 0x00#8

/-- `f = 0x64 | reverseFlag | orientationFlag` (R127). -/
def orientationByte (o : Orientation) (reverse : Bool) : Byte :=
  0x64#8 ||| reverseFlag reverse ||| orientationFlag o

/-- The orientation and reverse that an orientation byte stands for; none for any other byte (R127). -/
def orientationOfByte (f : Byte) : Option (Orientation × Bool) :=
  if f = 0x64#8 then some (.portrait, false)
  else if f = 0x65#8 then some (.portrait, true)
  else if f = 0x66#8 then some (.landscape, false)
  else if f = 0x67#8 then some (.landscape, true)
  else none

/-- What a SetOrientation instruction asks for, its orientation byte standing in p1 or after the frame; none where it
is not the frame of R127. -/
def orientationOperand (p1 p2 p3 p4 : BitVec 10) (after : Byte) : Option (Orientation × Bool) :=
  if p2 = 0#10 ∧ p3 = 0#10 ∧ p4 = 0#10 then
    if p1 = 0#10 then orientationOfByte after
    else if after = 0#8 ∧ p1.extractLsb' 8 2 = 0#2 then orientationOfByte (p1.extractLsb' 0 8)
    else none
  else none

end Sys2Proof.Machine
end

