-- ==== Sys2Proof/Machine/FrameCodec.lean ====
section
/-! DEFINITION. The Frame Codec as functions of the ports (41_frame_encoder.md): pack a CommandFrame, unpack one, and
pack a 16-bit integer. -/

namespace Sys2Proof.Machine

/-- PACKCMD's frame (41_frame_encoder.md R82): `a`, `b`, `c`, `d` are the low 10 bits of the parameters. -/
def packFields (opcode : Byte) (a b c d : BitVec 10) : CommandFrame :=
  { b0 := a.extractLsb' 2 8
    b1 := a.extractLsb' 0 2 ++ b.extractLsb' 4 6
    b2 := b.extractLsb' 0 4 ++ c.extractLsb' 6 4
    b3 := c.extractLsb' 0 6 ++ d.extractLsb' 8 2
    b4 := d.extractLsb' 0 8
    b5 := opcode }

/-- R82 and R83 on the 16-bit ports. -/
def packFrame (opcode : Byte) (p1 p2 p3 p4 : BitVec 16) : CommandFrame :=
  packFields opcode (meaningfulBits p1) (meaningfulBits p2) (meaningfulBits p3) (meaningfulBits p4)

/-- The frame's bytes, byte0 first (00_scope.md R10). -/
def CommandFrame.bytes (f : CommandFrame) : List Byte := [f.b0, f.b1, f.b2, f.b3, f.b4, f.b5]

/-- The 48 bits read from byte0 bit 7 down to byte5 bit 0 (20_memory.md R42). -/
def CommandFrame.word (f : CommandFrame) : FrameWord := f.b0 ++ f.b1 ++ f.b2 ++ f.b3 ++ f.b4 ++ f.b5

/-- `unp1` (41_frame_encoder.md R85). -/
def CommandFrame.unp1 (f : CommandFrame) : BitVec 10 := f.b0 ++ f.b1.extractLsb' 6 2

/-- `unp2` (R85). -/
def CommandFrame.unp2 (f : CommandFrame) : BitVec 10 := f.b1.extractLsb' 0 6 ++ f.b2.extractLsb' 4 4

/-- `unp3` (R85). -/
def CommandFrame.unp3 (f : CommandFrame) : BitVec 10 := f.b2.extractLsb' 0 4 ++ f.b3.extractLsb' 2 6

/-- `unp4` (R85). -/
def CommandFrame.unp4 (f : CommandFrame) : BitVec 10 := f.b3.extractLsb' 0 2 ++ f.b4

/-- `unopc` (R85). -/
def CommandFrame.unopc (f : CommandFrame) : Byte := f.b5

/-- `u16_b[0] = n[7:0]` (41_frame_encoder.md R88). -/
def u16Low (n : BitVec 16) : Byte := n.extractLsb' 0 8

/-- `u16_b[1] = n[15:8]` (R88). -/
def u16High (n : BitVec 16) : Byte := n.extractLsb' 8 8

end Sys2Proof.Machine
end

