-- ==== Sys2Proof/Machine/Messages.lean ====
section
/-! DEFINITION. The FCE as one function from a request to a response (00_scope.md R12, 10_state.md R28), and the host's
messages in the notation of 30_encoding.md R76: lists of items whose bytes are joined in order. -/

namespace Sys2Proof.Machine

/-- 00_scope.md R12: the response of a request is a function of that request alone (10_state.md R21). -/
def fce : Request → Response
  | .cmd opcode p1 p2 p3 p4 => .frame (packFrame opcode p1 p2 p3 p4)
  | .u16 n => .u16 (u16Low n) (u16High n)
  | .color r g b => .color (packColorWord r g b)

/-- The bytes the host appends for a response (30_encoding.md R76, 20_memory.md R44). -/
def Response.bytes (order : PixelWireOrder) : Response → List Byte
  | .frame f => f.bytes
  | .u16 b0 b1 => [b0, b1]
  | .color c => serializeColor order c

/-- An item of a message (30_encoding.md R76). -/
inductive Item where
  /-- An FCE instruction, whose response bytes are appended. -/
  | instr (q : Request)
  /-- `BYTE v`. -/
  | byte (v : Byte)
  /-- `ZEROS k`. -/
  | zeros (k : Nat)
  /-- `COLORS (r,g,b) x k`. -/
  | colors (px : Rgb) (k : Nat)
  deriving DecidableEq, Repr

/-- The requests an item presents to the FCE, in order. -/
def Item.requests : Item → List Request
  | .instr q => [q]
  | .byte _ => []
  | .zeros _ => []
  | .colors px k => List.replicate k (.color px.r px.g px.b)

/-- The bytes an item appends (30_encoding.md R76). -/
def Item.bytes (order : PixelWireOrder) : Item → List Byte
  | .instr q => (fce q).bytes order
  | .byte v => [v]
  | .zeros k => List.replicate k 0#8
  | .colors px k => (List.replicate k ((fce (.color px.r px.g px.b)).bytes order)).flatten

/-- The bytes of a message: its items' bytes in order (30_encoding.md R76). -/
def messageBytes (order : PixelWireOrder) (items : List Item) : List Byte := items.flatMap (Item.bytes order)

/-- The requests of a message, in order. -/
def messageRequests (items : List Item) : List Request := items.flatMap Item.requests

/-- A frame without parameters: omitted parameters are 0 (30_encoding.md R70, R75). -/
def plainFrame (opcode : Byte) : List Item := [.instr (.cmd opcode 0 0 0 0)]

/-- The geometry-reset message: the frame and ten zero bytes (43_device_commands.md R128). -/
def geometryResetItems : List Item := plainFrame 0x7A#8 ++ [.zeros 10]

/-- `ORIENT f` (30_encoding.md R75). -/
def orientItems : OrientParamSlot → Byte → List Item
  | .p1, f => [.instr (.cmd 0x79#8 (f.setWidth 16) 0 0 0)]
  | .trailingByte, f => plainFrame 0x79#8 ++ [.byte f]

/-- The SetOrientation message: orientation byte, new width, new height, five zero bytes (43_device_commands.md
R127). -/
def setOrientationItems (slot : OrientParamSlot) (o : Orientation) (reverse : Bool) : List Item :=
  orientItems slot (orientationByte o reverse) ++
    [.instr (.u16 (BitVec.ofNat 16 (dimensions o).1)), .instr (.u16 (BitVec.ofNat 16 (dimensions o).2)), .zeros 5]

/-- The DisplayBitmap header (43_device_commands.md R129). -/
def bitmapHeaderItems (x y x2 y2 : BitVec 16) : List Item := [.instr (.cmd 0xC5#8 x y x2 y2)]

/-- The DisplayBitmap header of an image drawn at (x, y), from its 16-bit port values (R134, 92_eei_decisions.md
D20). -/
def headerFor (x y : Int) (w h : Nat) : List Item :=
  let r := rectangle x y w h
  bitmapHeaderItems (portOfInt r.1) (portOfInt r.2.1) (portOfInt r.2.2.1) (portOfInt r.2.2.2)

/-- A PixelRow: one ColorWord for each sample, in column order (42_color_converter.md R111). -/
def rowItems (row : List Rgb) : List Item := row.map fun px => .colors px 1

end Sys2Proof.Machine
end

