-- ==== Sys2Proof/Machine/Ops.lean ====
section
/-! DEFINITION. The named operations over the state: presenting a request to the FCE, reading its output ports, opening
the Transport, and the single choke point through which every message is written (00_scope.md R11). The machine takes
no exception (60_exceptions.md R151, R156), so there is no operation for one. -/

namespace Sys2Proof.Machine

/-- A request drives the ports of its own format (30_encoding.md R61) and no other. -/
def InPorts.drive (p : InPorts) : Request → InPorts
  | .cmd opcode p1 p2 p3 p4 =>
    { p with cmdOpcode := opcode, cmdP1 := p1, cmdP2 := p2, cmdP3 := p3, cmdP4 := p4 }
  | .u16 n => { p with u16N := n }
  | .color r g b => { p with colR := r, colG := g, colB := b }

/-- The host presents one request: the ports carry it and the response is appended (00_scope.md R12;
log entry 21). -/
def State.present (s : State) (q : Request) : State :=
  { s with ports := s.ports.drive q, responses := s.responses ++ [fce q] }

/-- The host presents requests one at a time, in order (10_state.md R23). -/
def State.presentAll (s : State) (qs : List Request) : State := qs.foldl State.present s

/-- Output port `frame_b`: at every moment the function of the current inputs (70_reset_and_hazards.md R171). -/
def State.frameB (s : State) : CommandFrame :=
  packFrame s.ports.cmdOpcode s.ports.cmdP1 s.ports.cmdP2 s.ports.cmdP3 s.ports.cmdP4

/-- Output port `u16_b` (10_state.md R27). -/
def State.u16B (s : State) : Byte × Byte := (u16Low s.ports.u16N, u16High s.ports.u16N)

/-- Output port `color` (10_state.md R27). -/
def State.color (s : State) : BitVec 16 := packColorWord s.ports.colR s.ports.colG s.ports.colB

/-- The wire stream: the writes' bytes in issue order (20_memory.md R50). -/
def State.stream (s : State) : List Byte := s.wire.flatMap Written.bytes

/-- Reading DisplayState; before the first successful setOrientation it is a fault (10_state.md R34; log entry
16). -/
def State.readDisplay (s : State) : Host.Outcome DisplayState Fault Refusal :=
  match s.display with
  | some d => .next d
  | none => .fault .displayUnspecified

/-- Why no write can start: the session is Failed and stuck (10_state.md R30; log entry 10), or a write is in flight
(20_memory.md R50). -/
def State.writeBlocked (s : State) : Option Fault :=
  if s.session = .failed then some .sessionFailed
  else if s.hung = true then some .operationInFlight
  else none

/-- What the Transport does with the next write; it completes where the input says nothing (log entry 8). -/
def State.nextFate (s : State) : WriteFate :=
  match s.fates with
  | [] => .completes
  | fate :: _ => fate

/-- The write completed: the whole message is on the wire. -/
def State.written (s : State) (kind : MessageKind) (bytes : List Byte) : State :=
  { s with wire := s.wire ++ [{ kind := kind, bytes := bytes, fate := .completes }], fates := s.fates.tail }

/-- The write failed: some prefix of it is on the wire (20_memory.md R54), the session is Failed (10_state.md R30), the
operation is abandoned and answers TransportError (43_device_commands.md R133, R135). -/
def State.writeFailed (s : State) (kind : MessageKind) (bytes : List Byte) : State :=
  { s with
    wire := s.wire ++ [{ kind := kind, bytes := bytes.take (Config.failedPrefix s.draws), fate := .fails }]
    fates := s.fates.tail
    draws := s.draws + 1
    session := .failed
    raster := []
    current := []
    result := some (.error .transportError) }

/-- The write never completes: the owning operation is stuck, not failed (60_exceptions.md R158; log entry 7). -/
def State.writeHung (s : State) (kind : MessageKind) (bytes : List Byte) : State :=
  { s with
    wire := s.wire ++ [{ kind := kind, bytes := bytes.take (Config.hungPrefix s.draws), fate := .hangs }]
    fates := s.fates.tail
    draws := s.draws + 1
    hung := true }

/-- One host `write(bytes)`: the message's requests are presented to the FCE and its bytes handed to the Transport.
`done` is what the host does once the write has completed (log entry 23). -/
def State.send (s : State) (kind : MessageKind) (items : List Item) (done : State → State) : Result :=
  match s.writeBlocked with
  | some fault => .fault fault
  | none =>
    match s.transport with
    | none => .refused .transportClosed
    | some _ =>
      let bytes := messageBytes Config.pixelWireOrder items
      let t := s.presentAll (messageRequests items)
      match s.nextFate with
      | .completes => .next (done (t.written kind bytes))
      | .fails => .next (t.writeFailed kind bytes)
      | .hangs => .next (t.writeHung kind bytes)

/-- A message of a device command: nothing else may be written between a bitmap header and its last row
(70_reset_and_hazards.md R177). -/
def State.sendCommand (s : State) (kind : MessageKind) (items : List Item) (done : State → State) : Result :=
  if s.raster = [] then s.send kind items done else .fault .operationInFlight

/-- The operation goes on: it has no answer yet. -/
def State.continueOperation (s : State) : State := { s with result := none }

/-- The operation is finished and answers success (43_device_commands.md R133). -/
def State.succeed (s : State) : State := { s with result := some .success }

/-- The Transport opened with the parameters of 43_device_commands.md R136; an open one stays as it is. -/
def State.opened (s : State) : State :=
  match s.transport with
  | none => { s with transport := some (TransportParams.host s.openPath) }
  | some _ => s

/-- The Transport did not open: a transport error makes the session Failed (10_state.md R30, 60_exceptions.md R157) and
nothing is written. -/
def State.openFailed (s : State) : State :=
  { s with session := .failed, current := [], result := some (.error .transportError) }

end Sys2Proof.Machine
end

