-- ==== Sys2Proof/Machine/WireOrder.lean ====
section
/-! DEFINITION. The order of messages on the wire: the boot order (70_reset_and_hazards.md R174), the orientation
handshake (R179), the contiguous raster (R177) and one operation at a time (R178), as an automaton over the kinds of the
messages. The FCE enforces none of it (00_scope.md R4); a wire model refuses what breaks it. -/

namespace Sys2Proof.Machine

/-- Where a wire stream stands. -/
inductive Phase where
  /-- Nothing written: the first init message is due. -/
  | start
  /-- The Reset message is written: init's geometry reset is due. -/
  | resetSent
  /-- init's SetOrientation(Portrait) is due. -/
  | bootGeometry
  /-- No operation is in progress. -/
  | idle
  /-- A geometry reset is written: its SetOrientation is due. -/
  | geometrySent
  /-- A bitmap is in progress, with this many rows due after the next one. -/
  | rows (more : Nat)
  deriving DecidableEq, Repr

/-- After a row, or a header of that many rows. -/
def Phase.afterRow : Nat → Phase
  | 0 => .idle
  | n + 1 => .rows n

/-- While no operation is in progress (70_reset_and_hazards.md R177, R179; 43_device_commands.md R121). That a Reset, and
with it a second init of a Ready session, is refused here is the model's choice (log entry 26), and so is that a
SetOrientation without its geometry reset is a refusal and no fault (log entry 15). -/
def Phase.nextIdle : MessageKind → Host.Outcome Phase Fault Refusal
  | .reset => .refused .resetAfterInit
  | .clear => .next .idle
  | .toBlack => .next .idle
  | .screenOff => .next .idle
  | .screenOn => .next .idle
  | .setOrientation _ _ => .refused .handshakeMissing
  | .geometryReset => .next .geometrySent
  | .bitmapHeader h => .next (Phase.afterRow h)
  | .row => .refused .strayRow

/-- The phase after one more message, or why that message may not stand there. -/
def Phase.next (p : Phase) (k : MessageKind) : Host.Outcome Phase Fault Refusal :=
  match p with
  | .start => if k = .reset then .next .resetSent else .refused .beforeInit
  | .resetSent => if k = .geometryReset then .next .bootGeometry else .refused .beforeInit
  | .bootGeometry => if k = .setOrientation .portrait false then .next .idle else .refused .beforeInit
  | .idle => Phase.nextIdle k
  | .geometrySent =>
    match k with
    | .setOrientation _ _ => .next .idle
    | _ => .fault .operationInFlight
  | .rows more => if k = .row then .next (Phase.afterRow more) else .fault .operationInFlight

/-- The phase after a list of messages. -/
def Phase.run (p : Phase) : List MessageKind → Host.Outcome Phase Fault Refusal
  | [] => .next p
  | k :: ks =>
    match p.next k with
    | .next q => q.run ks
    | .fault f => .fault f
    | .refused r => .refused r

/-- The kinds of the messages on the wire, in order. -/
def State.kinds (s : State) : List MessageKind := s.wire.map Written.kind

/-- Where the wire of a state stands. -/
def State.phase (s : State) : Host.Outcome Phase Fault Refusal := Phase.start.run s.kinds

/-- The three init messages (43_device_commands.md R131). -/
def initKinds : List MessageKind := [.reset, .geometryReset, .setOrientation .portrait false]

/-- init's writes have all succeeded: the stream is exactly the three init messages (10_state.md R30). -/
def State.initWritten (s : State) : Bool := s.kinds == initKinds

/-- A stream that stands inside an operation of more than one message. -/
def Phase.inside : Phase → Bool
  | .start => false
  | .resetSent => true
  | .bootGeometry => true
  | .idle => false
  | .geometrySent => true
  | .rows _ => true

/-- An operation is in progress (70_reset_and_hazards.md R178): a write is in flight, or the stream of a session that
has not failed stands inside an operation. -/
def State.midOperation (s : State) : Bool :=
  s.hung ||
    (s.session != .failed &&
      match s.phase with
      | .next p => p.inside
      | .fault _ => false
      | .refused _ => false)

/-- The message an instruction would write, where it writes one: none for a request, for a DisplayBitmap without a
decoded image, and for the forms that are refused whatever the stream. -/
def State.messageOf (s : State) : Instr → Option MessageKind
  | .packCmd _ _ _ _ _ => none
  | .packU16 _ => none
  | .packColor _ _ _ => none
  | .reservedOp11 => none
  | .reset => some .reset
  | .clear => some .clear
  | .toBlack => some .toBlack
  | .screenOff => some .screenOff
  | .screenOn => some .screenOn
  | .setBrightness _ _ _ _ => none
  | .setOrientation p1 p2 p3 p4 after =>
    match orientationOperand p1 p2 p3 p4 after with
    | some (o, reverse) => some (.setOrientation o reverse)
    | none => none
  | .geometryReset => some .geometryReset
  | .displayBitmap _ _ _ _ =>
    match s.bitmaps with
    | [] => none
    | call :: _ =>
      match call.decoded with
      | .image img => some (.bitmapHeader img.height)
      | .failed => none

/-- The instructions the host operations are made of (43_device_commands.md R121 to R125, R127 to R133): the device
commands but SetBrightness, which no host operation sends (R126). -/
def ofHostOperation : Instr → Bool
  | .packCmd _ _ _ _ _ => false
  | .packU16 _ => false
  | .packColor _ _ _ => false
  | .reservedOp11 => false
  | .reset => true
  | .clear => true
  | .toBlack => true
  | .screenOff => true
  | .screenOn => true
  | .setBrightness _ _ _ _ => false
  | .setOrientation _ _ _ _ _ => true
  | .geometryReset => true
  | .displayBitmap _ _ _ _ => true

/-- A message may stand next on the wire of the state. -/
def State.accepts (s : State) (k : MessageKind) : Host.Outcome Unit Fault Refusal :=
  match s.phase with
  | .fault f => .fault f
  | .refused r => .refused r
  | .next p =>
    match p.next k with
    | .next _ => .next ()
    | .fault f => .fault f
    | .refused r => .refused r

/-- Whether the wire lets an instruction be issued. A request needs nothing of the wire (70_reset_and_hazards.md R174);
where no write can start, the meaning itself says so. -/
def State.admits (s : State) (i : Instr) : Host.Outcome Unit Fault Refusal :=
  match s.messageOf i with
  | none => .next ()
  | some k =>
    match s.writeBlocked with
    | some _ => .next ()
    | none => s.accepts k

end Sys2Proof.Machine
end

