-- ==== Sys2Proof/Machine/DeviceCommands.lean ====
section
/-! DEFINITION. The device commands (43_device_commands.md): each is the host writing that command's message. What the
device does on receiving it is outside the model (00_scope.md R5; log entries 1 and 18). -/

namespace Sys2Proof.Machine

/-- Reset 0xFF (R121), the first write of init (R131): init opens the Transport, then writes the frame alone. -/
def execReset (s : State) : Result :=
  match s.writeBlocked with
  | some fault => .fault fault
  | none =>
    if s.transport = none ∧ s.openFails = true then .next s.openFailed
    else s.opened.sendCommand .reset (plainFrame 0xFF#8) State.continueOperation

/-- Clear 0x66 (R122). -/
def execClear (s : State) : Result := s.sendCommand .clear (plainFrame 0x66#8) State.succeed

/-- ToBlack 0x67 (R123). -/
def execToBlack (s : State) : Result := s.sendCommand .toBlack (plainFrame 0x67#8) State.succeed

/-- ScreenOff 0x6C (R124). -/
def execScreenOff (s : State) : Result := s.sendCommand .screenOff (plainFrame 0x6C#8) State.succeed

/-- ScreenOn 0x6D (R125). -/
def execScreenOn (s : State) : Result := s.sendCommand .screenOn (plainFrame 0x6D#8) State.succeed

/-- SetBrightness 0x6E (R126): a model of the wire stream must refuse the message. -/
def execSetBrightness (_ _ _ _ : BitVec 10) (_ : State) : Result := .refused .brightnessLayout

/-- Geometry reset 0x7A (R128), the first of the two messages of setOrientation (R130). -/
def execGeometryReset (s : State) : Result :=
  s.sendCommand .geometryReset geometryResetItems State.continueOperation

/-- Once the SetOrientation write has succeeded: DisplayState is set (10_state.md R33), and a session whose init has
written its three messages is Ready (R30; log entry 24). -/
def State.orientationSet (o : Orientation) (reverse : Bool) (s : State) : State :=
  { s with
    display := some (displayFor o reverse)
    session := if s.session = .uninitialized ∧ s.initWritten = true then .ready else s.session
    result := some .success }

/-- SetOrientation 0x79 (R127, R130). -/
def execSetOrientation (p1 p2 p3 p4 : BitVec 10) (after : Byte) (s : State) : Result :=
  match orientationOperand p1 p2 p3 p4 after with
  | none => .refused .orientationByte
  | some (o, reverse) =>
    s.sendCommand (.setOrientation o reverse) (setOrientationItems Config.orientParamSlot o reverse)
      (State.orientationSet o reverse)

/-- The image's rows are due once its header is written (R129). -/
def State.rasterDue (rows : List (List Rgb)) (s : State) : State := { s with raster := rows, result := none }

/-- DisplayBitmap 0xC5 (R129, R133): decode the image; on DecodeError write nothing; else compute the Rectangle and
send the header, its four values on the ports as the host's 16-bit integers (R134; 92_eei_decisions.md D20), after which
the rows are due. The call itself may not be made while another operation is in progress (70_reset_and_hazards.md R178;
log entries 13 and 22). -/
def execDisplayBitmap (x y x2 y2 : BitVec 10) (s : State) : Result :=
  match s.bitmaps with
  | [] => .refused .noImage
  | call :: rest =>
    match call.decoded with
    | .failed =>
      if s.midOperation = true then .fault .operationInFlight
      else .next { s with bitmaps := rest, result := some (.error .decodeError) }
    | .image img =>
      if img.width = 0 ∨ img.rows = [] then .refused .zeroSizeImage
      else if img.fills call.x call.y x y x2 y2 = true then
        { s with bitmaps := rest }.sendCommand (.bitmapHeader img.height)
          (headerFor call.x call.y img.width img.height) (State.rasterDue img.rows)
      else .refused .notTheRectangle

/-- After a row's write has succeeded: the last one finishes the operation (R133). -/
def State.rowDone (rest : List (List Rgb)) (s : State) : State :=
  match rest with
  | [] => { s with raster := [], result := some .success }
  | _ => { s with raster := rest }

/-- The Bitmap Streamer writes the next row of the bitmap in progress (R129, R133; log entry 14). -/
def State.writeRow (row : List Rgb) (rest : List (List Rgb)) (s : State) : Result :=
  s.send .row (rowItems row) (State.rowDone rest)

end Sys2Proof.Machine
end

