-- ==== Sys2Proof/Machine/Boot.lean ====
section
/-! DEFINITION. Placing one instruction as the very next one from outside (log entry 3). A device command can be the
next message only on a stream that may go on with it (70_reset_and_hazards.md R174, R179), so placing one brings the
stream there where it is not. -/

namespace Sys2Proof.Machine

/-- A completed write of a message. -/
def completed (kind : MessageKind) (items : List Item) : Written :=
  { kind := kind, bytes := messageBytes Config.pixelWireOrder items, fate := .completes }

/-- The three init messages on the wire (43_device_commands.md R131). -/
def initWrites : List Written :=
  [completed .reset (plainFrame 0xFF#8), completed .geometryReset geometryResetItems,
    completed (.setOrientation .portrait false) (setOrientationItems Config.orientParamSlot .portrait false)]

/-- The session as a successful init leaves it (43_device_commands.md R131). -/
def State.booted (s : State) : State :=
  { s with
    transport := some (TransportParams.host s.openPath)
    wire := initWrites
    session := .ready
    display := some (displayFor .portrait false) }

/-- The session as it is created (10_state.md R30, R34). -/
def State.unbooted (s : State) : State := { s with wire := [], session := .uninitialized, display := none }

/-- The stream brought to where the instruction may stand next; a stream that is there already is not touched. -/
def State.placedFor (s : State) (i : Instr) : State :=
  match s.admits i with
  | .next _ => s
  | _ =>
    match i with
    | .reset => s.unbooted
    | .setOrientation _ _ _ _ _ =>
      { s.booted with wire := initWrites ++ [completed .geometryReset geometryResetItems] }
    | _ => s.booted

/-- The image whose row bytes are all zero and whose Rectangle is the header's. -/
def blankImage (x y x2 y2 : BitVec 10) : Image :=
  { width := (x2 - x).toNat + 1
    rows := List.replicate ((y2 - y).toNat + 1) (List.replicate ((x2 - x).toNat + 1) { r := 0, g := 0, b := 0 }) }

/-- A DisplayBitmap placed from outside brings its image: the table gives the rows no bits, so their bytes are 0. An
image that is waiting already is not touched. -/
def State.imageFor (s : State) : Instr → State
  | .displayBitmap x y x2 y2 =>
    if s.bitmaps = [] then
      { s with bitmaps := [{ x := x.toNat, y := y.toNat, decoded := .image (blankImage x y x2 y2) }] }
    else s
  | _ => s

/-- The word stands next: it is the owner's turn and nothing comes before it. -/
def State.placed (s : State) (w : Word) : State :=
  let t := { s with current := w :: s.current, raster := [], hung := false, turns := .owner :: s.turns }
  match decode w with
  | .ok i => (t.imageFor i).placedFor i
  | .error _ => t

end Sys2Proof.Machine
end

