-- ==== Sys2Proof/Machine/Fetch.lean ====
section
/-! DEFINITION. What happens next: which agent moves, and the word or row it brings (20_memory.md R50, 60_exceptions.md
R158, R162, 70_reset_and_hazards.md R176, R177). Fetching reads no memory (20_memory.md R53): the host presents
requests and messages (10_state.md R23). -/

namespace Sys2Proof.Machine

/-- What one step does. -/
inductive Action where
  /-- Nothing is presented, or the owning operation waits for a write that never completes. -/
  | wait
  /-- The Bitmap Streamer writes the next row. -/
  | row (px : List Rgb) (rest : List (List Rgb))
  /-- The host issues one instruction word: the next of the operation in progress, or the first of the next operation
  where none is in progress. -/
  | word (w : Word)
  /-- The host issues a word of another operation while one is in progress. -/
  | interrupt (w : Word)
  deriving DecidableEq, Repr

/-- The host starts its next operation; where it has none, the step waits (log entry 25). -/
def State.startOperation (s : State) : Action × State :=
  match s.program with
  | [] => (.wait, s)
  | [] :: ops => (.wait, { s with program := ops })
  | (w :: ws) :: ops => (.word w, { s with current := ws, program := ops })

/-- A word of another operation is issued while one is in progress (60_exceptions.md R162; log entry 11). It does not
become part of the operation in progress. -/
def State.interruptingWord (s : State) : Action × State :=
  match s.program with
  | [] => (.wait, s)
  | [] :: ops => (.wait, { s with program := ops })
  | [w] :: ops => (.interrupt w, { s with program := ops })
  | (w :: ws) :: ops => (.interrupt w, { s with program := ws :: ops })

/-- The owner goes on: a write that never completes blocks it; the rows of a bitmap come before anything else; then the
operation's own messages; then the next operation, which is a second one where the stream still stands inside an
operation. -/
def State.ownerAction (s : State) : Action × State :=
  if s.hung = true then (.wait, s)
  else
    match s.raster with
    | row :: rest => (.row row rest, s)
    | [] =>
      match s.current with
      | w :: ws => (.word w, { s with current := ws })
      | [] => if s.midOperation = true then s.interruptingWord else s.startOperation

/-- An operation of the host is in progress: rows due, messages still to be issued, a write in flight, or a stream that
stands inside an operation. -/
def State.busy (s : State) : Bool := !s.raster.isEmpty || !s.current.isEmpty || s.midOperation

/-- The next action and the state it is taken from. A caller whose turn comes while nothing is in progress is the
owner of the operation it starts. -/
def State.fetch (s : State) : Action × State :=
  let t := { s with turns := s.turns.tail }
  match s.turns with
  | .caller :: _ => if s.busy = true then t.interruptingWord else t.ownerAction
  | _ => t.ownerAction

end Sys2Proof.Machine
end

