-- ==== Sys2Proof/Machine/ColorConverter.lean ====
section
/-! DEFINITION. The colour converter's instruction: PACKCOLOR (42_color_converter.md). -/

namespace Sys2Proof.Machine

/-- PACKCOLOR (42_color_converter.md R102). -/
def execPackColor (r g b : Byte) (s : State) : Result := .next (s.present (.color r g b))

end Sys2Proof.Machine
end

