-- ==== Sys2Proof/Machine/FrameEncoder.lean ====
section
/-! DEFINITION. The frame encoder's instructions: PACKCMD and PACKU16 (41_frame_encoder.md). Neither reads the host's
state, and neither can stop (60_exceptions.md R151). -/

namespace Sys2Proof.Machine

/-- PACKCMD (41_frame_encoder.md R82). -/
def execPackCmd (opcode : Byte) (p1 p2 p3 p4 : BitVec 16) (s : State) : Result :=
  .next (s.present (.cmd opcode p1 p2 p3 p4))

/-- PACKU16 (41_frame_encoder.md R88). -/
def execPackU16 (n : BitVec 16) (s : State) : Result := .next (s.present (.u16 n))

end Sys2Proof.Machine
end

