-- ==== Sys2Proof/Machine/ReservedRequest.lean ====
section
/-! DEFINITION. The reserved request operation 11 (30_encoding.md R64). -/

namespace Sys2Proof.Machine

/-- A request with op 11 has no meaning: it is refused and gives no response (30_encoding.md R64, 60_exceptions.md
R152; log entry 17). -/
def execReservedOp11 (_ : State) : Result := .refused .reservedOperation

end Sys2Proof.Machine
end

