-- ==== Sys2Proof/Machine/Dispatch.lean ====
section
/-! DEFINITION. One arm for each instruction. -/

namespace Sys2Proof.Machine

def exec (i : Instr) (s : State) : Host.Outcome State Fault Refusal :=
  match i with
  | .packCmd opcode p1 p2 p3 p4 => Sys2Proof.Machine.execPackCmd opcode p1 p2 p3 p4 s
  | .packU16 n => Sys2Proof.Machine.execPackU16 n s
  | .packColor r g b => Sys2Proof.Machine.execPackColor r g b s
  | .reservedOp11 => Sys2Proof.Machine.execReservedOp11 s
  | .reset => Sys2Proof.Machine.execReset s
  | .clear => Sys2Proof.Machine.execClear s
  | .toBlack => Sys2Proof.Machine.execToBlack s
  | .screenOff => Sys2Proof.Machine.execScreenOff s
  | .screenOn => Sys2Proof.Machine.execScreenOn s
  | .setBrightness p1 p2 p3 p4 => Sys2Proof.Machine.execSetBrightness p1 p2 p3 p4 s
  | .setOrientation p1 p2 p3 p4 after => Sys2Proof.Machine.execSetOrientation p1 p2 p3 p4 after s
  | .geometryReset => Sys2Proof.Machine.execGeometryReset s
  | .displayBitmap x y x2 y2 => Sys2Proof.Machine.execDisplayBitmap x y x2 y2 s

end Sys2Proof.Machine
end

