-- ==== Sys2Proof/Machine/Issue.lean ====
section
/-! DEFINITION. Issuing one word: as part of the operation in progress, or of another one. -/

namespace Sys2Proof.Machine

/-- Decode a word and, where the wire lets the instruction stand there, execute it. -/
def runWord (w : Word) (s : State) : Host.Outcome State Fault Refusal :=
  match decode w with
  | .error why => .refused (.undecodable why)
  | .ok i =>
    match s.admits i with
    | .next _ => exec i s
    | .fault f => .fault f
    | .refused r => .refused r

/-- A word of another operation while one is in progress: a device command is the host's fault (60_exceptions.md R162,
70_reset_and_hazards.md R178; 93_implementation_defined.md U17; log entry 11). A request to the FCE runs, because it
belongs to no session (10_state.md R21, R35). -/
def runInterrupting (w : Word) (s : State) : Host.Outcome State Fault Refusal :=
  match decode w with
  | .error why => .refused (.undecodable why)
  | .ok i => if ofHostOperation i = true then .fault .operationInFlight else exec i s

end Sys2Proof.Machine
end

