-- ==== Sys2Proof/Machine/Step.lean ====
section
/-! DEFINITION. One step of the machine: one request, one message, or one row (log entries 14 and 19). -/

namespace Sys2Proof.Machine

/-- One step: the next action of the agent whose turn it is. -/
def step (s : State) : Host.Outcome State Fault Refusal :=
  match s.fetch with
  | (.wait, t) => .next t
  | (.row px rest, t) => t.writeRow px rest
  | (.word w, t) => runWord w t
  | (.interrupt w, t) => runInterrupting w t

/-- The instruction of a table row placed so that the very next step runs it (log entries 3 and 20). -/
def State.withFetchWord (s : State) (nbits w : Nat) : State :=
  match tableWord nbits w with
  | some word => s.placed word
  | none => s

end Sys2Proof.Machine
end

