-- ==== Sys2Proof/Machine/Assembler.lean ====
section
/-! DEFINITION. The assembler's meaning (30_encoding.md R74, R75): operands as integers, refused where they do not fit
their field, and the pseudo-instructions. Its text is the spec's notation only (92_eei_decisions.md D15). -/

namespace Sys2Proof.Machine

/-- An operand of `width` bits: an assembler refuses one outside its field, it does not wrap it (R74). -/
def fieldOperand (width n : Nat) : Except HostError (BitVec width) :=
  if n < 2 ^ width then .ok (BitVec.ofNat width n) else .error .validationError

/-- The operand at a place, 0 where it is omitted (30_encoding.md R70). -/
def operandOr0 (ops : List Nat) (k : Nat) : Nat := (ops[k]?).getD 0

/-- `PACKCMD opc [, p1 [, p2 [, p3 [, p4]]]]` (R74). -/
def assemblePackCmd (opc : Nat) (ps : List Nat) : Except HostError Instr :=
  if ps.length ≤ 4 then
    match fieldOperand 8 opc, fieldOperand 16 (operandOr0 ps 0), fieldOperand 16 (operandOr0 ps 1),
      fieldOperand 16 (operandOr0 ps 2), fieldOperand 16 (operandOr0 ps 3) with
    | .ok o, .ok p1, .ok p2, .ok p3, .ok p4 => .ok (.packCmd o p1 p2 p3 p4)
    | _, _, _, _, _ => .error .validationError
  else .error .validationError

/-- `PACKU16 n` (R74). -/
def assemblePackU16 (n : Nat) : Except HostError Instr :=
  match fieldOperand 16 n with
  | .ok v => .ok (.packU16 v)
  | .error e => .error e

/-- `PACKCOLOR r, g, b` (R74). -/
def assemblePackColor (r g b : Nat) : Except HostError Instr :=
  match fieldOperand 8 r, fieldOperand 8 g, fieldOperand 8 b with
  | .ok r', .ok g', .ok b' => .ok (.packColor r' g' b')
  | _, _, _ => .error .validationError

/-- The pseudo-instructions (30_encoding.md R75); there is none for SetBrightness. -/
inductive Pseudo where
  | reset
  | clear
  | toBlack
  | screenOff
  | screenOn
  | geomReset
  | bitmap (x y x2 y2 : BitVec 16)
  | orient (f : Byte)
  deriving DecidableEq, Repr

/-- Each expands to one PACKCMD, and `ORIENT` to one PACKCMD and a byte under `TRAILING_BYTE` (R75). -/
def Pseudo.items (slot : OrientParamSlot) : Pseudo → List Item
  | .reset => plainFrame 0xFF#8
  | .clear => plainFrame 0x66#8
  | .toBlack => plainFrame 0x67#8
  | .screenOff => plainFrame 0x6C#8
  | .screenOn => plainFrame 0x6D#8
  | .geomReset => plainFrame 0x7A#8
  | .bitmap x y x2 y2 => bitmapHeaderItems x y x2 y2
  | .orient f => orientItems slot f

/-- A host program is a list of messages; its result is the wire stream (30_encoding.md R76, 20_memory.md R50). -/
def programStream (order : PixelWireOrder) (program : List (List Item)) : List Byte :=
  program.flatMap (messageBytes order)

end Sys2Proof.Machine
end

