-- ==== Sys2Proof/Machine/HostOps.lean ====
section
/-! DEFINITION. The host's operations (43_device_commands.md R130, R131, R133) as lists of instructions, and the
messages each one writes. -/

namespace Sys2Proof.Machine

/-- The Display Session's and Bitmap Streamer's operations. -/
inductive HostCall where
  | init
  | clear
  | toBlack
  | screenOff
  | screenOn
  | setOrientation (o : Orientation) (reverse : Bool)
  | displayBitmap (x y : Int) (decoded : Decoded)
  deriving DecidableEq, Repr

/-- The SetOrientation instruction, its orientation byte where the parameter slot says (43_device_commands.md R127). -/
def orientationInstr : OrientParamSlot → Orientation → Bool → Instr
  | .p1, o, reverse => .setOrientation ((orientationByte o reverse).setWidth 10) 0 0 0 0
  | .trailingByte, o, reverse => .setOrientation 0 0 0 0 (orientationByte o reverse)

/-- The DisplayBitmap instruction of an image drawn at (x, y) (R129, R134). -/
def bitmapInstr (x y : Int) (w h : Nat) : Instr :=
  let r := rectangle x y w h
  .displayBitmap (fieldOfInt r.1) (fieldOfInt r.2.1) (fieldOfInt r.2.2.1) (fieldOfInt r.2.2.2)

/-- The instructions of an operation, in order. A call whose image does not decode has no Rectangle; its header fields
are not used (log entry 13). -/
def HostCall.instrs (slot : OrientParamSlot) : HostCall → List Instr
  | .init => [.reset, .geometryReset, orientationInstr slot .portrait false]
  | .clear => [.clear]
  | .toBlack => [.toBlack]
  | .screenOff => [.screenOff]
  | .screenOn => [.screenOn]
  | .setOrientation o reverse => [.geometryReset, orientationInstr slot o reverse]
  | .displayBitmap x y (.image img) => [bitmapInstr x y img.width img.height]
  | .displayBitmap x y .failed => [bitmapInstr x y 1 1]

/-- The displayBitmap call an operation is, where it is one. -/
def HostCall.bitmaps : HostCall → List BitmapCall
  | .displayBitmap x y decoded => [{ x := x, y := y, decoded := decoded }]
  | _ => []

/-- The words of an operation. -/
def HostCall.words (slot : OrientParamSlot) (c : HostCall) : List Word := (c.instrs slot).map encode

/-- The host is asked for one more operation. -/
def State.submit (s : State) (c : HostCall) : State :=
  { s with program := s.program ++ [c.words Config.orientParamSlot], bitmaps := s.bitmaps ++ c.bitmaps }

/-- The messages of an operation, in order (R121 to R131, R133), in the notation of 30_encoding.md R76. -/
def HostCall.messages (slot : OrientParamSlot) : HostCall → List (List Item)
  | .init => [plainFrame 0xFF#8, geometryResetItems, setOrientationItems slot .portrait false]
  | .clear => [plainFrame 0x66#8]
  | .toBlack => [plainFrame 0x67#8]
  | .screenOff => [plainFrame 0x6C#8]
  | .screenOn => [plainFrame 0x6D#8]
  | .setOrientation o reverse => [geometryResetItems, setOrientationItems slot o reverse]
  | .displayBitmap x y (.image img) => headerFor x y img.width img.height :: img.rows.map rowItems
  | .displayBitmap _ _ .failed => []

/-- The bytes of each message of an operation. -/
def HostCall.bytes (order : PixelWireOrder) (slot : OrientParamSlot) (c : HostCall) : List (List Byte) :=
  (c.messages slot).map (messageBytes order)

end Sys2Proof.Machine
end

