-- ==== Sys2Proof/Machine/WireReader.lean ====
section
/-! DEFINITION. Reading a wire stream back into its messages (43_device_commands.md R132): a message's length follows
from byte5 of its leading frame, a row's from the bitmap header before it, when no coordinate wraps. -/

namespace Sys2Proof.Machine

/-- Why a stream cannot be read on. -/
inductive ReadError where
  /-- The stream ends inside a message. -/
  | truncated
  /-- byte5 is no listed opcode (30_encoding.md R72). -/
  | unlistedOpcode (opcode : Byte)
  /-- A SetBrightness message has no known layout (43_device_commands.md R126). -/
  | brightness
  /-- The header's Rectangle wraps, so it does not give the rows' number and length (43_device_commands.md R132). -/
  | wrapped
  deriving DecidableEq, Repr

/-- The first six bytes of a stream as a CommandFrame. -/
def CommandFrame.ofBytes : List Byte → Option CommandFrame
  | b0 :: b1 :: b2 :: b3 :: b4 :: b5 :: _ => some { b0 := b0, b1 := b1, b2 := b2, b3 := b3, b4 := b4, b5 := b5 }
  | _ => none

/-- The length of the message that a frame with this opcode heads (43_device_commands.md R132). -/
def messageLength (slot : OrientParamSlot) (opcode : Byte) : Except ReadError Nat :=
  if opcode = 0xFF#8 ∨ opcode = 0x66#8 ∨ opcode = 0x67#8 ∨ opcode = 0x6C#8 ∨ opcode = 0x6D#8 ∨ opcode = 0xC5#8 then
    .ok 6
  else if opcode = 0x7A#8 then .ok 16
  else if opcode = 0x79#8 then
    match slot with
    | .p1 => .ok 15
    | .trailingByte => .ok 16
  else if opcode = 0x6E#8 then .error .brightness
  else .error (.unlistedOpcode opcode)

/-- The number of rows that follow a frame and the bytes of each: none follow a frame that is no bitmap header. -/
def rowsAfter (f : CommandFrame) : Except ReadError (Nat × Nat) :=
  if f.unopc = 0xC5#8 then
    if f.unp1 ≤ f.unp3 ∧ f.unp2 ≤ f.unp4 then
      .ok (f.unp4.toNat - f.unp2.toNat + 1, 2 * (f.unp3.toNat - f.unp1.toNat + 1))
    else .error .wrapped
  else .ok (0, 0)

/-- Take one message of known length off a stream. -/
def takeMessage (n : Nat) (stream : List Byte) : Except ReadError (List Byte × List Byte) :=
  if stream.length < n then .error .truncated else .ok (stream.take n, stream.drop n)

/-- Take `count` messages of `n` bytes each off a stream. -/
def takeRows (n : Nat) : Nat → List Byte → Except ReadError (List (List Byte) × List Byte)
  | 0, stream => .ok ([], stream)
  | count + 1, stream =>
    match takeMessage n stream with
    | .error e => .error e
    | .ok (row, rest) =>
      match takeRows n count rest with
      | .error e => .error e
      | .ok (rows, rest') => .ok (row :: rows, rest')

/-- One message headed by a frame, with the rows that follow it. -/
def readMessage (slot : OrientParamSlot) (stream : List Byte) : Except ReadError (List (List Byte) × List Byte) :=
  match CommandFrame.ofBytes stream with
  | none => .error .truncated
  | some f =>
    match messageLength slot f.unopc, rowsAfter f with
    | .error e, _ => .error e
    | _, .error e => .error e
    | .ok n, .ok (count, rowBytes) =>
      match takeMessage n stream with
      | .error e => .error e
      | .ok (msg, rest) =>
        match takeRows rowBytes count rest with
        | .error e => .error e
        | .ok (rows, rest') => .ok (msg :: rows, rest')

/-- The messages of a whole stream, reading at most `fuel` frames. -/
def readStream (slot : OrientParamSlot) : Nat → List Byte → Except ReadError (List (List Byte))
  | _, [] => .ok []
  | 0, _ :: _ => .error .truncated
  | fuel + 1, stream =>
    match readMessage slot stream with
    | .error e => .error e
    | .ok (msgs, rest) =>
      match readStream slot fuel rest with
      | .error e => .error e
      | .ok more => .ok (msgs ++ more)

end Sys2Proof.Machine
end

