-- ==== Sys2Proof/Safety.lean ====
section
/-! DEFINITION. The terms claims about runs are stated in: when a message can be sent, when no operation is in progress,
and the invariant that ties the session to its wire. -/

namespace Sys2Proof.Machine

/-- A device command can write its message now: the session is not Failed, no write is in flight, no bitmap rows are
due, and the Transport is open. -/
def State.CanStart (s : State) : Prop :=
  s.session ≠ .failed ∧ s.hung = false ∧ s.raster = [] ∧ s.transport ≠ none

/-- It can, and the Transport will complete the write. -/
def State.CanSend (s : State) : Prop := s.CanStart ∧ s.nextFate = .completes

/-- A Ready session between two operations, the next step being the host's next operation. -/
def State.Quiet (s : State) : Prop :=
  s.session = .ready ∧ s.hung = false ∧ s.raster = [] ∧ s.current = [] ∧ s.turns = [] ∧ s.transport ≠ none ∧
    s.phase = .next .idle

/-- The phases before init has written its three messages. -/
def Phase.boot (p : Phase) : Prop := p = .start ∨ p = .resetSent ∨ p = .bootGeometry

/-- What the phase of the wire says about the session and the rows still due. -/
def State.Agrees (s : State) (p : Phase) : Prop :=
  s.session ≠ .failed → s.hung = false →
    (s.session = .uninitialized ∧ p.boot ∧ s.raster = []) ∨
    (s.session = .ready ∧ (p = .idle ∨ p = .geometrySent) ∧ s.raster = []) ∨
    (s.session = .ready ∧ ∃ more, p = .rows more ∧ s.raster.length = more + 1)

/-- The invariant of the machine: the wire obeys the order rules (70_reset_and_hazards.md R174, R177, R179), the session
agrees with it, a known DisplayState has the dimensions of its orientation (10_state.md R32), a Ready session has one
(10_state.md R30, R33), an open Transport has the host's parameters, and it is open once anything is written
(43_device_commands.md R136). -/
structure State.Inv (s : State) : Prop where
  ordered : ∃ p, s.phase = .next p ∧ s.Agrees p
  dimensioned : ∀ d, s.display = some d → d = displayFor d.orientation d.reverse
  ready : s.session = .ready → s.display ≠ none ∧ initKinds <+: s.kinds
  opened : ∀ params, s.transport = some params → params = TransportParams.host params.path
  openForWriting : s.wire ≠ [] → s.transport ≠ none

/-- What a completed message of one parameter-free frame leaves: the ports drive PACKCMD's zero parameters and the
opcode, its response is appended, the message is on the wire, one input of the Transport is used up, and the operation
has the given answer. Everything else is as before. -/
def State.afterPlainMessage (s : State) (opcode : Byte) (kind : MessageKind) (bytes : List Byte)
    (result : Option HostResult) : State :=
  { s with
    ports := { s.ports with cmdOpcode := opcode, cmdP1 := 0, cmdP2 := 0, cmdP3 := 0, cmdP4 := 0 }
    responses := s.responses ++ [.frame { b0 := 0, b1 := 0, b2 := 0, b3 := 0, b4 := 0, b5 := opcode }]
    wire := s.wire ++ [{ kind := kind, bytes := bytes, fate := .completes }]
    fates := s.fates.tail
    result := result }

/-- The leading bytes of a SetOrientation message as the table of 43_device_commands.md R127 writes them. -/
def orientationHeader : OrientParamSlot → Orientation → Bool → List Byte
  | .p1, .portrait, false => [0x19, 0x00, 0x00, 0x00, 0x00, 0x79]
  | .p1, .portrait, true => [0x19, 0x40, 0x00, 0x00, 0x00, 0x79]
  | .p1, .landscape, false => [0x19, 0x80, 0x00, 0x00, 0x00, 0x79]
  | .p1, .landscape, true => [0x19, 0xC0, 0x00, 0x00, 0x00, 0x79]
  | .trailingByte, .portrait, false => [0x00, 0x00, 0x00, 0x00, 0x00, 0x79, 0x64]
  | .trailingByte, .portrait, true => [0x00, 0x00, 0x00, 0x00, 0x00, 0x79, 0x65]
  | .trailingByte, .landscape, false => [0x00, 0x00, 0x00, 0x00, 0x00, 0x79, 0x66]
  | .trailingByte, .landscape, true => [0x00, 0x00, 0x00, 0x00, 0x00, 0x79, 0x67]

/-- Width and height of the orientation, each little-endian (43_device_commands.md R127, 95_test_vectors.md P1, P3). -/
def orientationSize : Orientation → List Byte
  | .portrait => [0x40, 0x01, 0xE0, 0x01]
  | .landscape => [0xE0, 0x01, 0x40, 0x01]

/-- The bytes of a SetOrientation message, written out. -/
def orientationMessage (slot : OrientParamSlot) (o : Orientation) (reverse : Bool) : List Byte :=
  orientationHeader slot o reverse ++ orientationSize o ++ [0, 0, 0, 0, 0]

/-- The bytes of the geometry-reset message, written out (43_device_commands.md R128). -/
def geometryResetMessage : List Byte := [0, 0, 0, 0, 0, 0x7A, 0, 0, 0, 0, 0, 0, 0, 0, 0, 0]

/-- A decoded image of at least one pixel whose rows all have its width. -/
def Image.Drawable (img : Image) : Prop := 0 < img.width ∧ img.rows ≠ [] ∧ ∀ row ∈ img.rows, row.length = img.width

/-- The image of the call, where it has one, is drawable; and the decoder did not fail. -/
def HostCall.Drawable : HostCall → Prop
  | .displayBitmap _ _ (.image img) => img.Drawable
  | .displayBitmap _ _ .failed => False
  | _ => True

/-- The call's Rectangle, where it has one, does not wrap on the wire (43_device_commands.md R132, R134). -/
def HostCall.Unwrapped : HostCall → Prop
  | .displayBitmap x y (.image img) =>
    img.Drawable ∧ 0 ≤ x ∧ x + img.width ≤ 1024 ∧ 0 ≤ y ∧ y + img.height ≤ 1024
  | _ => True

end Sys2Proof.Machine
end

