-- ==== Sys2Proof/Certificates/Slice0/Obligations.lean ====
section
/-! DEFINITION. The statements about the model, from the numbered rules of the spec. -/

open Sys2Proof Sys2Proof.Machine

/-! ### Requests: the encoding -/

/-- 30_encoding.md R62, R64: the decoder is total on request words, and the operation field alone selects the operation;
op 11 is refused. The fields are those of R61. That an op 11 word, which R62 calls invalid, decodes to an instruction of
its own whose meaning is the refusal, is the model's reading (log entry 17). -/
def Obligations.RequestFormats : Prop :=
  ∀ q : RequestWord,
    (q.extractLsb' 72 2 = 0#2 →
      decode (.request q) = .ok (.packCmd (q.extractLsb' 64 8) (q.extractLsb' 48 16) (q.extractLsb' 32 16)
        (q.extractLsb' 16 16) (q.extractLsb' 0 16))) ∧
    (q.extractLsb' 72 2 = 1#2 → decode (.request q) = .ok (.packU16 (q.extractLsb' 0 16))) ∧
    (q.extractLsb' 72 2 = 2#2 →
      decode (.request q) = .ok (.packColor (q.extractLsb' 16 8) (q.extractLsb' 8 8) (q.extractLsb' 0 8))) ∧
    (q.extractLsb' 72 2 = 3#2 → decode (.request q) = .ok .reservedOp11 ∧
      ∀ s : State, runWord (.request q) s = .refused .reservedOperation)

/-- 30_encoding.md R63: unused bits, and the parameter bits the computation ignores, change no response. -/
def Obligations.UnusedRequestBitsIgnored : Prop :=
  (∀ q q' : RequestWord, q.extractLsb' 72 2 = 1#2 → q'.extractLsb' 72 2 = 1#2 →
    q.extractLsb' 0 16 = q'.extractLsb' 0 16 → decode (.request q) = decode (.request q')) ∧
  (∀ q q' : RequestWord, q.extractLsb' 72 2 = 2#2 → q'.extractLsb' 72 2 = 2#2 →
    q.extractLsb' 0 24 = q'.extractLsb' 0 24 → decode (.request q) = decode (.request q')) ∧
  (∀ (q q' : RequestWord) (s : State), q.extractLsb' 72 2 = 0#2 → q'.extractLsb' 72 2 = 0#2 →
    q.extractLsb' 64 8 = q'.extractLsb' 64 8 → q.extractLsb' 48 10 = q'.extractLsb' 48 10 →
    q.extractLsb' 32 10 = q'.extractLsb' 32 10 → q.extractLsb' 16 10 = q'.extractLsb' 16 10 →
    q.extractLsb' 0 10 = q'.extractLsb' 0 10 →
    ∃ t t' : State, runWord (.request q) s = .next t ∧ runWord (.request q') s = .next t' ∧
      t.responses = t'.responses)

/-- 30_encoding.md R64: a request with op 11 is refused and gives no response. -/
def Obligations.ReservedOperationRefused : Prop :=
  ∀ (q : RequestWord) (s : State), q.extractLsb' 72 2 = 3#2 →
    runWord (.request q) s = .refused .reservedOperation ∧ exec .reservedOp11 s = .refused .reservedOperation

/-- Decode and encode agree for every well-formed instruction. -/
def Obligations.DecodeEncodeRoundTrip : Prop :=
  ∀ i : Instr, i.wellFormed = true → decode (encode i) = .ok i

/-- Each command word, and each PACKCMD request word, has one meaning: encoding what it decodes to gives the word
back. -/
def Obligations.EncodeDecodeRoundTrip : Prop :=
  (∀ (f : FrameWord) (after : Byte) (i : Instr), decode (.command f after) = .ok i → encode i = .command f after) ∧
  (∀ q : RequestWord, q.extractLsb' 72 2 = 0#2 → ∃ i, decode (.request q) = .ok i ∧ encode i = .request q)

/-- 30_encoding.md R71, R72: a wire model refuses a frame whose opcode is not listed, and a SetBrightness frame; the FCE
encodes every opcode. -/
def Obligations.UnlistedOpcodesRefused : Prop :=
  (∀ (f : FrameWord) (after : Byte) (s : State),
    f.extractLsb' 0 8 ∉ [0x66#8, 0x67#8, 0x6C#8, 0x6D#8, 0x6E#8, 0x79#8, 0x7A#8, 0xC5#8, 0xFF#8] →
      runWord (.command f after) s = .refused (.undecodable (.unlistedOpcode (f.extractLsb' 0 8)))) ∧
  (∀ (f : FrameWord) (s : State), f.extractLsb' 0 8 = 0x6E#8 →
    runWord (.command f 0) s = .refused .brightnessLayout) ∧
  (∀ (opcode : Byte) (p1 p2 p3 p4 : BitVec 16) (s : State),
    ∃ (t : State) (f : CommandFrame), exec (.packCmd opcode p1 p2 p3 p4) s = .next t ∧
      t.responses = s.responses ++ [.frame f] ∧ f.b5 = opcode)

/-- A command that has no parameter is refused with one (43_device_commands.md R121 to R125, R128; 30_encoding.md R70),
and a command word with a byte after a frame that has no operand there is refused (log entry 12). -/
def Obligations.MalformedCommandWordsRefused : Prop :=
  ∀ (f : FrameWord) (after : Byte) (s : State),
    (f.extractLsb' 0 8 ∈ [0xFF#8, 0x66#8, 0x67#8, 0x6C#8, 0x6D#8, 0x7A#8] →
      (f.extractLsb' 8 40 ≠ 0#40 → runWord (.command f after) s = .refused (.undecodable .parametersNotZero)) ∧
      (f.extractLsb' 8 40 = 0#40 → after ≠ 0 → runWord (.command f after) s = .refused (.undecodable .strayByte))) ∧
    (f.extractLsb' 0 8 ∈ [0x6E#8, 0xC5#8] → after ≠ 0 →
      runWord (.command f after) s = .refused (.undecodable .strayByte))

/-- Words written out bit by bit from the spec's encodings (95_test_vectors.md T1, T27, T42, T50, T61, T66, T68) decode
to the instructions they stand for. That the op 11 word, which T50 says is refused, decodes to an instruction whose
meaning is the refusal is the model's reading (log entry 17); that a SetOrientation word has its orientation byte in
either of the two places is its choice (log entry 12). -/
def Obligations.WordsDecodeAsWritten : Prop :=
  decode (.request 0x0C5000A0014000D0017#74) = .ok (.packCmd 0xC5 10 20 13 23) ∧
  decode (.request 0x100000000ABCDEF0140#74) = .ok (.packU16 320) ∧
  decode (.request 0x2000000000000C86432#74) = .ok (.packColor 200 100 50) ∧
  decode (.request 0x3000000000000000005#74) = .ok .reservedOp11 ∧
  decode (.command 0x000000000066#48 0) = .ok .clear ∧
  decode (.command 0x19C000000079#48 0) = .ok (.setOrientation 0x67 0 0 0 0) ∧
  decode (.command 0x000000000079#48 0x65#8) = .ok (.setOrientation 0 0 0 0 0x65) ∧
  decode (.command 0x0281403417C5#48 0) = .ok (.displayBitmap 10 20 13 23)

/-! ### The frame encoder -/

/-- PACKCMD (41_frame_encoder.md R82) completes in every state, drives its own ports, and answers the frame; nothing
else changes. The bytes are the rule's slices and the source's expressions, byte0 reduced to 8 bits; an omitted
parameter is 0. That the ports keep what is driven is the model's choice (log entry 2). -/
def Obligations.PackCmdAnswersFrame : Prop :=
  (∀ (opcode : Byte) (p1 p2 p3 p4 : BitVec 16),
    decode (.request (0#2 ++ opcode ++ p1 ++ p2 ++ p3 ++ p4)) = .ok (.packCmd opcode p1 p2 p3 p4)) ∧
  (∀ (opcode : Byte) (p1 p2 p3 p4 : BitVec 16) (s : State),
    exec (.packCmd opcode p1 p2 p3 p4) s = .next
      { s with
        ports := { s.ports with cmdOpcode := opcode, cmdP1 := p1, cmdP2 := p2, cmdP3 := p3, cmdP4 := p4 }
        responses := s.responses ++ [.frame
          { b0 := p1.extractLsb' 2 8
            b1 := p1.extractLsb' 0 2 ++ p2.extractLsb' 4 6
            b2 := p2.extractLsb' 0 4 ++ p3.extractLsb' 6 4
            b3 := p3.extractLsb' 0 6 ++ p4.extractLsb' 8 2
            b4 := p4.extractLsb' 0 8
            b5 := opcode }] }) ∧
  (∀ (opcode : Byte) (p1 p2 p3 p4 : BitVec 16),
    (packFrame opcode p1 p2 p3 p4).b0.toNat = (p1.toNat >>> 2) % 256 ∧
    (packFrame opcode p1 p2 p3 p4).b1.toNat = ((p1.toNat &&& 0x03) <<< 6) ||| ((p2.toNat >>> 4) &&& 0x3F) ∧
    (packFrame opcode p1 p2 p3 p4).b2.toNat = ((p2.toNat &&& 0x0F) <<< 4) ||| ((p3.toNat >>> 6) &&& 0x0F) ∧
    (packFrame opcode p1 p2 p3 p4).b3.toNat = ((p3.toNat &&& 0x3F) <<< 2) ||| ((p4.toNat >>> 8) &&& 0x03) ∧
    (packFrame opcode p1 p2 p3 p4).b4.toNat = p4.toNat &&& 0xFF ∧
    (packFrame opcode p1 p2 p3 p4).b5.toNat = opcode.toNat &&& 0xFF) ∧
  (packFrame 0xC5 10 20 13 23).bytes = [0x02, 0x81, 0x40, 0x34, 0x17, 0xC5] ∧
  (∀ opcode : Nat, opcode < 256 →
    assemblePackCmd opcode [] = .ok (.packCmd (BitVec.ofNat 8 opcode) 0 0 0 0))

/-- 41_frame_encoder.md R83: bits 15 to 10 of a parameter affect no output byte. -/
def Obligations.ParametersMasked : Prop :=
  (∀ (opcode : Byte) (p1 p2 p3 p4 : BitVec 16) (s : State),
    ∃ t t' : State, exec (.packCmd opcode p1 p2 p3 p4) s = .next t ∧
      exec (.packCmd opcode (BitVec.ofNat 16 (p1.toNat % 1024)) (BitVec.ofNat 16 (p2.toNat % 1024))
        (BitVec.ofNat 16 (p3.toNat % 1024)) (BitVec.ofNat 16 (p4.toNat % 1024))) s = .next t' ∧
      t.responses = t'.responses ∧ t.frameB = t'.frameB) ∧
  (∀ (opcode : Byte) (p2 p3 p4 : BitVec 16),
    packFrame opcode 1024 p2 p3 p4 = packFrame opcode 0 p2 p3 p4 ∧
    packFrame opcode 0xFFFF p2 p3 p4 = packFrame opcode 1023 p2 p3 p4)

/-- 41_frame_encoder.md R84: the six bytes, joined, are the four low 10-bit fields and the opcode. -/
def Obligations.FrameConcatenation : Prop :=
  ∀ (opcode : Byte) (p1 p2 p3 p4 : BitVec 16) (s : State),
    ∃ (t : State) (f : CommandFrame), exec (.packCmd opcode p1 p2 p3 p4) s = .next t ∧
      t.responses = s.responses ++ [.frame f] ∧ t.frameB = f ∧
      f.b0 ++ f.b1 ++ f.b2 ++ f.b3 ++ f.b4 ++ f.b5 =
        p1.extractLsb' 0 10 ++ p2.extractLsb' 0 10 ++ p3.extractLsb' 0 10 ++ p4.extractLsb' 0 10 ++ opcode

/-- 41_frame_encoder.md R85: unpacking recovers the low 10 bits and the opcode, and every frame has exactly one
preimage on the meaningful bits. -/
def Obligations.UnpackRecoversFields : Prop :=
  (∀ (opcode : Byte) (p1 p2 p3 p4 : BitVec 16),
    (packFrame opcode p1 p2 p3 p4).unp1.toNat = p1.toNat % 1024 ∧
    (packFrame opcode p1 p2 p3 p4).unp2.toNat = p2.toNat % 1024 ∧
    (packFrame opcode p1 p2 p3 p4).unp3.toNat = p3.toNat % 1024 ∧
    (packFrame opcode p1 p2 p3 p4).unp4.toNat = p4.toNat % 1024 ∧
    (packFrame opcode p1 p2 p3 p4).unopc = opcode) ∧
  (∀ f : CommandFrame, ∃! x : Byte × BitVec 10 × BitVec 10 × BitVec 10 × BitVec 10,
    packFrame x.1 (x.2.1.setWidth 16) (x.2.2.1.setWidth 16) (x.2.2.2.1.setWidth 16) (x.2.2.2.2.setWidth 16) = f)

/-- 41_frame_encoder.md R86: byte5 is the whole opcode and no other byte depends on it. -/
def Obligations.OpcodeIsByteFive : Prop :=
  ∀ (opcode opcode' : Byte) (p1 p2 p3 p4 : BitVec 16) (s : State),
    ∃ (t t' : State) (f f' : CommandFrame),
      exec (.packCmd opcode p1 p2 p3 p4) s = .next t ∧ exec (.packCmd opcode' p1 p2 p3 p4) s = .next t' ∧
      t.frameB = f ∧ t'.frameB = f' ∧ f.b5 = opcode ∧ f'.b5 = opcode' ∧
      f.b0 = f'.b0 ∧ f.b1 = f'.b1 ∧ f.b2 = f'.b2 ∧ f.b3 = f'.b3 ∧ f.b4 = f'.b4

/-- PACKU16 (41_frame_encoder.md R88) completes in every state and answers the low byte, then the high byte. That its
port keeps what is driven, and the other ports theirs, is the model's choice (log entry 2). -/
def Obligations.PackU16AnswersBytes : Prop :=
  (∀ n : BitVec 16, decode (.request (1#2 ++ 0#56 ++ n)) = .ok (.packU16 n)) ∧
  (∀ (n : BitVec 16) (s : State),
    exec (.packU16 n) s = .next
      { s with
        ports := { s.ports with u16N := n }
        responses := s.responses ++ [.u16 (n.extractLsb' 0 8) (n.extractLsb' 8 8)] }) ∧
  (∀ s : State, ∃ t, exec (.packU16 320) s = .next t ∧ t.responses = s.responses ++ [.u16 0x40 0x01])

/-- 41_frame_encoder.md R89: the bytes reassemble to n, and a wider host value arrives as its low 16 bits. -/
def Obligations.PackU16RoundTrip : Prop :=
  (∀ (n : BitVec 16) (s : State), ∃ (t : State) (b0 b1 : Byte), exec (.packU16 n) s = .next t ∧
    t.responses = s.responses ++ [.u16 b0 b1] ∧ t.u16B = (b0, b1) ∧ b0.toNat + 256 * b1.toNat = n.toNat) ∧
  (∀ k : Nat, (portOfInt k).toNat = k % 65536) ∧
  [0, 0x00FF, 0x0100, 0xFFFF, 480].map (fun n => ((u16Low n).toNat, (u16High n).toNat)) =
    [(0x00, 0x00), (0xFF, 0x00), (0x00, 0x01), (0xFF, 0xFF), (0xE0, 0x01)]

/-! ### The colour converter -/

/-- PACKCOLOR (42_color_converter.md R102, R103) completes in every state and answers the 5-6-5 word. That its ports
keep what is driven, and the other ports theirs, is the model's choice (log entry 2). -/
def Obligations.PackColorAnswersWord : Prop :=
  (∀ r g b : Byte, decode (.request (2#2 ++ 0#48 ++ r ++ g ++ b)) = .ok (.packColor r g b)) ∧
  (∀ (r g b : Byte) (s : State), ∃ c : BitVec 16,
    exec (.packColor r g b) s = .next
      { s with ports := { s.ports with colR := r, colG := g, colB := b }, responses := s.responses ++ [.color c] } ∧
    c.toNat = ((r.toNat * 31 / 255) <<< 11) ||| ((g.toNat * 63 / 255) <<< 5) ||| (b.toNat * 31 / 255) ∧
    (c.extractLsb' 11 5).toNat = r.toNat * 31 / 255 ∧ (c.extractLsb' 5 6).toNat = g.toNat * 63 / 255 ∧
    (c.extractLsb' 0 5).toNat = b.toNat * 31 / 255) ∧
  (∀ s : State, ∃ t, exec (.packColor 255 0 0) s = .next t ∧ t.responses = s.responses ++ [.color 0xF800])

/-- 42_color_converter.md R104: entry k of a scaling table begins at ceil(255 k / max) and ends before entry k + 1. -/
def Obligations.ScalingTableBounds : Prop :=
  ∀ (c : Byte) (k : Nat),
    (scale c 31 = k ↔ (255 * k + 30) / 31 ≤ c.toNat ∧ c.toNat < (255 * (k + 1) + 30) / 31) ∧
    (scale c 63 = k ↔ (255 * k + 62) / 63 ≤ c.toNat ∧ c.toNat < (255 * (k + 1) + 62) / 63)

/-- 42_color_converter.md R105: each field depends on its own channel only. -/
def Obligations.ColorFieldsIndependent : Prop :=
  ∀ (r g b r' g' b' : Byte) (s : State), ∃ (t t' : State) (c c' : BitVec 16),
    exec (.packColor r g b) s = .next t ∧ exec (.packColor r' g' b') s = .next t' ∧
    t.responses = s.responses ++ [.color c] ∧ t'.responses = s.responses ++ [.color c'] ∧
    (r = r' → c.extractLsb' 11 5 = c'.extractLsb' 11 5) ∧
    (g = g' → c.extractLsb' 5 6 = c'.extractLsb' 5 6) ∧
    (b = b' → c.extractLsb' 0 5 = c'.extractLsb' 0 5)

/-- 42_color_converter.md R106: range, monotonicity, and truncation. -/
def Obligations.ScalingMonotoneAndBounded : Prop :=
  (∀ max : Nat, max = 31 ∨ max = 63 →
    (∀ c : Byte, scale c max ≤ max ∧ (scale c max = max ↔ c = 255)) ∧
    (∀ c c' : Byte, c ≤ c' → scale c max ≤ scale c' max) ∧ scale 0 max = 0) ∧
  (∀ r g b : Byte, ((packColorWord r g b).extractLsb' 11 5).toNat = scale r 31 ∧
    ((packColorWord r g b).extractLsb' 5 6).toNat = scale g 63 ∧
    ((packColorWord r g b).extractLsb' 0 5).toNat = scale b 31) ∧
  scale 254 31 = 30 ∧ scale 254 63 = 62

/-- No output port depends on the inputs of another operation (10_state.md R28), and no operation drives another's
ports. That the ports an operation does not drive keep their values, and with them the other two outputs, is the model's
choice (log entry 2). -/
def Obligations.SubUnitsIndependent : Prop :=
  ∀ (s : State) (opcode : Byte) (p1 p2 p3 p4 n : BitVec 16) (r g b : Byte),
    (∃ t, exec (.packCmd opcode p1 p2 p3 p4) s = .next t ∧ t.frameB = packFrame opcode p1 p2 p3 p4 ∧
      t.u16B = s.u16B ∧ t.color = s.color) ∧
    (∃ t, exec (.packU16 n) s = .next t ∧ t.u16B = (u16Low n, u16High n) ∧ t.frameB = s.frameB ∧
      t.color = s.color) ∧
    (∃ t, exec (.packColor r g b) s = .next t ∧ t.color = packColorWord r g b ∧ t.frameB = s.frameB ∧
      t.u16B = s.u16B)

/-! ### The device commands -/

/-- Clear, ToBlack, ScreenOff and ScreenOn (43_device_commands.md R122 to R125) each write a single frame. That their
PACKCMD drives the ports and leaves its response is the model's reading (log entries 2 and 23). -/
def Obligations.ParameterFreeCommandsWrite : Prop :=
  (∀ s : State, s.CanSend →
    exec .clear s = .next (s.afterPlainMessage 0x66 .clear [0, 0, 0, 0, 0, 0x66] (some .success)) ∧
    exec .toBlack s = .next (s.afterPlainMessage 0x67 .toBlack [0, 0, 0, 0, 0, 0x67] (some .success)) ∧
    exec .screenOff s = .next (s.afterPlainMessage 0x6C .screenOff [0, 0, 0, 0, 0, 0x6C] (some .success)) ∧
    exec .screenOn s = .next (s.afterPlainMessage 0x6D .screenOn [0, 0, 0, 0, 0, 0x6D] (some .success))) ∧
  (∀ slot : OrientParamSlot, HostCall.clear.instrs slot = [.clear] ∧ HostCall.toBlack.instrs slot = [.toBlack] ∧
    HostCall.screenOff.instrs slot = [.screenOff] ∧ HostCall.screenOn.instrs slot = [.screenOn])

/-- Reset (43_device_commands.md R121) writes the frame alone; init alone sends it, as its first write, immediately
followed by setOrientation(Portrait). That an open Transport stays as it is, is the model's choice (log entry 9), and so
is that the kept answer of the last operation is cleared (log entry 21); that the PACKCMD drives the ports and leaves its
response is its reading (log entries 2 and 23). -/
def Obligations.ResetWritesFrame : Prop :=
  (∀ s : State, s.CanSend → exec .reset s = .next (s.afterPlainMessage 0xFF .reset [0, 0, 0, 0, 0, 0xFF] none)) ∧
  (∀ (slot : OrientParamSlot) (c : HostCall), .reset ∈ c.instrs slot ↔ c = .init) ∧
  (∀ slot : OrientParamSlot,
    HostCall.init.instrs slot = .reset :: (HostCall.setOrientation .portrait false).instrs slot)

/-- The model opens the Transport as part of Reset, init's first message (log entry 9), with the parameters of
43_device_commands.md R136. A Transport that does not open makes the session Failed, and nothing is written
(10_state.md R30, 60_exceptions.md R157). The path is the host's input (log entry 27). The ports and the response of the
PACKCMD are log entries 2 and 23; that the kept answer is cleared where the Transport opens, is log entry 21. -/
def Obligations.ResetOpensTransport : Prop :=
  ∀ s : State, s.session ≠ .failed → s.hung = false → s.transport = none →
    (s.openFails = false → s.raster = [] → s.nextFate = .completes →
      exec .reset s = .next
        (({ s with
          transport := some { path := s.openPath, baud := 9600, dataBits := 8, stopBits := 1, parity := .none } } :
            State).afterPlainMessage 0xFF .reset [0, 0, 0, 0, 0, 0xFF] none)) ∧
    (s.openFails = true →
      exec .reset s = .next { s with session := .failed, current := [], result := some (.error .transportError) })

/-- The geometry reset (43_device_commands.md R128) is the frame and ten zero bytes, and the first message of every
setOrientation. The ports and the response of its PACKCMD are the model's reading (log entries 2 and 23); that the kept
answer of the last operation is cleared is its choice (log entry 21). -/
def Obligations.GeometryResetWrites : Prop :=
  (∀ s : State, s.CanSend →
    exec .geometryReset s = .next (s.afterPlainMessage 0x7A .geometryReset geometryResetMessage none)) ∧
  (∀ (slot : OrientParamSlot) (o : Orientation) (reverse : Bool),
    ((HostCall.setOrientation o reverse).instrs slot).head? = some .geometryReset)

/-- 43_device_commands.md R127: the SetOrientation message, the second of the two that setOrientation writes, for both
values of ORIENT_PARAM_SLOT: the frame, the orientation byte as p1 or after it, the new width and height low byte first,
five zero bytes. `orientationHeader` is the rule's table. -/
def Obligations.OrientationMessageLayout : Prop :=
  ∀ (order : PixelWireOrder) (slot : OrientParamSlot) (o : Orientation) (reverse : Bool) (f : Byte) (w h : BitVec 16),
    f = 0x64 ||| (if reverse = true then 0x01 else 0x00) ||| (if o = .landscape then 0x02 else 0x00) →
    w = (if o = .landscape then 480 else 320) → h = (if o = .landscape then 320 else 480) →
    ∃ msg : List Byte,
      (HostCall.setOrientation o reverse).bytes order slot = [geometryResetMessage, msg] ∧
      msg = (match slot with
        | .p1 => (packFrame 0x79 (f.setWidth 16) 0 0 0).bytes
        | .trailingByte => (packFrame 0x79 0 0 0 0).bytes ++ [f]) ++
          [w.extractLsb' 0 8, w.extractLsb' 8 8, h.extractLsb' 0 8, h.extractLsb' 8 8] ++ [0, 0, 0, 0, 0] ∧
      msg = orientationHeader slot o reverse ++ orientationSize o ++ [0, 0, 0, 0, 0] ∧
      msg.length = match slot with
        | .p1 => 15
        | .trailingByte => 16

/-- SetOrientation writes the message of 43_device_commands.md R127, and then DisplayState has the new dimensions
(10_state.md R32, R33); a session whose init this completes is Ready (10_state.md R30; log entry 24). The orientation
byte may stand in either place of the instruction (log entry 12); the message has it where ORIENT_PARAM_SLOT says. The
ports and the three responses, of the frame's PACKCMD and of PACKU16 of the width and of the height, are log entries 2
and 23. -/
def Obligations.SetOrientationWrites : Prop :=
  ∀ (s : State) (o : Orientation) (reverse : Bool) (slot : OrientParamSlot), s.CanSend →
    ∃ t : State, exec (orientationInstr slot o reverse) s = .next t ∧
      t = { s with
        ports := { s.ports with
          cmdOpcode := 0x79
          cmdP1 := match Config.orientParamSlot with
            | .p1 => 0x64 + (if reverse = true then 1 else 0) + (if o = .landscape then 2 else 0)
            | .trailingByte => 0
          cmdP2 := 0
          cmdP3 := 0
          cmdP4 := 0
          u16N := if o = .landscape then 320 else 480 }
        responses := s.responses ++ [
          .frame (match Config.orientParamSlot with
            | .p1 => packFrame 0x79
                (0x64 + (if reverse = true then 1 else 0) + (if o = .landscape then 2 else 0)) 0 0 0
            | .trailingByte => packFrame 0x79 0 0 0 0),
          if o = .landscape then .u16 0xE0 0x01 else .u16 0x40 0x01,
          if o = .landscape then .u16 0x40 0x01 else .u16 0xE0 0x01]
        wire := s.wire ++ [⟨.setOrientation o reverse, orientationMessage Config.orientParamSlot o reverse,
          .completes⟩]
        display := some (if o = .landscape then { width := 480, height := 320, orientation := o, reverse := reverse }
          else { width := 320, height := 480, orientation := o, reverse := reverse })
        session :=
          if s.session = .uninitialized ∧ s.kinds = [.reset, .geometryReset] ∧ o = .portrait ∧ reverse = false
          then .ready else s.session
        fates := s.fates.tail
        result := some .success }

/-- A SetOrientation that carries no orientation byte of 43_device_commands.md R127 is refused in every state (log
entry 12). -/
def Obligations.IllFormedOrientationRefused : Prop :=
  ∀ (s : State) (p1 p2 p3 p4 : BitVec 10) (after : Byte),
    (Instr.setOrientation p1 p2 p3 p4 after).wellFormed = false →
      exec (.setOrientation p1 p2 p3 p4 after) s = .refused .orientationByte

/-- 43_device_commands.md R126: a SetBrightness message is refused; the FCE alone encodes the frame. -/
def Obligations.BrightnessRefused : Prop :=
  ∀ (s : State) (p1 p2 p3 p4 : BitVec 10),
    exec (.setBrightness p1 p2 p3 p4) s = .refused .brightnessLayout ∧
    runWord (encode (.setBrightness p1 p2 p3 p4)) s = .refused .brightnessLayout ∧
    (∃ t, exec (.packCmd 0x6E 0 0 0 0) s = .next t ∧
      t.responses = s.responses ++ [.frame { b0 := 0, b1 := 0, b2 := 0, b3 := 0, b4 := 0, b5 := 0x6E }]) ∧
    (∀ (slot : OrientParamSlot) (c : HostCall), .setBrightness p1 p2 p3 p4 ∉ c.instrs slot)

/-- DisplayBitmap (43_device_commands.md R129, R133, R134) writes the header as its own 6-byte write, after which exactly
the image's rows are due. The Rectangle's four values are on the ports as the low 16 bits of the host's integers
(92_eei_decisions.md D20), and in the frame modulo 1024. Where the call and its image come from is log entry 13, that the
rows are written one a step is log entry 14, that the PACKCMD drives the ports and leaves its response is log entries 2
and 23, and that the kept answer of the last operation is cleared is log entry 21. -/
def Obligations.BitmapHeaderWritten : Prop :=
  ∀ (s : State) (x y : Int) (img : Image) (rest : List BitmapCall) (a b c d : BitVec 10), s.CanSend →
    s.bitmaps = { x := x, y := y, decoded := .image img } :: rest → img.Drawable →
    (a.toNat : Int) = x % 1024 → (b.toNat : Int) = y % 1024 →
    (c.toNat : Int) = (x + img.width - 1) % 1024 → (d.toNat : Int) = (y + img.height - 1) % 1024 →
    ∃ f : CommandFrame, f.unopc = 0xC5 ∧ f.unp1 = a ∧ f.unp2 = b ∧ f.unp3 = c ∧ f.unp4 = d ∧
      exec (.displayBitmap a b c d) s = .next
        { s with
          ports := { s.ports with
            cmdOpcode := 0xC5
            cmdP1 := BitVec.ofInt 16 x
            cmdP2 := BitVec.ofInt 16 y
            cmdP3 := BitVec.ofInt 16 (x + img.width - 1)
            cmdP4 := BitVec.ofInt 16 (y + img.height - 1) }
          responses := s.responses ++ [.frame f]
          wire := s.wire ++ [⟨.bitmapHeader img.height, [f.b0, f.b1, f.b2, f.b3, f.b4, f.b5], .completes⟩]
          bitmaps := rest
          raster := img.rows
          fates := s.fates.tail
          result := none }

/-- A DecodeError writes nothing (43_device_commands.md R133), and a zero-size image is refused (92_eei_decisions.md
D27). That DecodeError is answered on any session with no operation in progress, one before init and a Failed one
included, is log entries 22 and 10. That there must be a call, and that the header must be the Rectangle of its image and
no row short or long, is log entry 13. -/
def Obligations.UndrawableImagesWriteNothing : Prop :=
  (∀ (s : State) (a b c d : BitVec 10) (call : BitmapCall) (rest : List BitmapCall), s.bitmaps = call :: rest →
    call.decoded = .failed → s.midOperation = false →
    exec (.displayBitmap a b c d) s = .next { s with bitmaps := rest, result := some (.error .decodeError) }) ∧
  (∀ (s : State) (a b c d : BitVec 10) (call : BitmapCall) (img : Image) (rest : List BitmapCall),
    s.bitmaps = call :: rest → call.decoded = .image img →
    (img.width = 0 ∨ img.rows = [] → exec (.displayBitmap a b c d) s = .refused .zeroSizeImage) ∧
    (0 < img.width → img.rows ≠ [] →
      ¬ ((∀ row ∈ img.rows, row.length = img.width) ∧
        (a.toNat : Int) = call.x % 1024 ∧ (b.toNat : Int) = call.y % 1024 ∧
        (c.toNat : Int) = (call.x + img.width - 1) % 1024 ∧ (d.toNat : Int) = (call.y + img.height - 1) % 1024) →
      exec (.displayBitmap a b c d) s = .refused .notTheRectangle)) ∧
  (∀ (s : State) (a b c d : BitVec 10), s.bitmaps = [] → exec (.displayBitmap a b c d) s = .refused .noImage)

/-- Where the Transport is closed, every device command that would write a message, but Reset, is refused (log entry
9). -/
def Obligations.ClosedTransportRefused : Prop :=
  (∀ (s : State) (i : Instr) (k : MessageKind), s.session ≠ .failed → s.hung = false → s.raster = [] →
    s.transport = none → s.messageOf i = some k → (∀ x y x2 y2, i ≠ .displayBitmap x y x2 y2) → i ≠ .reset →
    exec i s = .refused .transportClosed) ∧
  (∀ (s : State) (x y : Int) (img : Image) (rest : List BitmapCall), s.session ≠ .failed → s.hung = false →
    s.raster = [] → s.transport = none → s.bitmaps = { x := x, y := y, decoded := .image img } :: rest →
    img.Drawable → exec (bitmapInstr x y img.width img.height) s = .refused .transportClosed)

/-- 43_device_commands.md R129, R133, 42_color_converter.md R111, 20_memory.md R44: while a bitmap is in progress, a
step of its owner writes the next row: two bytes for each sample, in column order, in the wire order of
PIXEL_WIRE_ORDER. One row a step is log entry 14; that its PACKCOLOR requests drive the ports and leave their responses
is log entries 2 and 23. -/
def Obligations.RowWritten : Prop :=
  ∀ (s : State) (row : List Rgb) (rest : List (List Rgb)), s.raster = row :: rest → s.session ≠ .failed →
    s.hung = false → s.transport ≠ none → s.nextFate = .completes → s.turns.head? ≠ some .caller →
    ∃ t : State, step s = .next t ∧
      t = { s with
        ports := { s.ports with
          colR := (row.getLast?.map Rgb.r).getD s.ports.colR
          colG := (row.getLast?.map Rgb.g).getD s.ports.colG
          colB := (row.getLast?.map Rgb.b).getD s.ports.colB }
        responses := s.responses ++ row.map (fun px => .color (packColorWord px.r px.g px.b))
        wire := s.wire ++ [⟨.row, (row.flatMap fun px =>
          match Config.pixelWireOrder with
          | .le => [(packColorWord px.r px.g px.b).extractLsb' 0 8, (packColorWord px.r px.g px.b).extractLsb' 8 8]
          | .be => [(packColorWord px.r px.g px.b).extractLsb' 8 8, (packColorWord px.r px.g px.b).extractLsb' 0 8]),
          .completes⟩]
        raster := rest
        fates := s.fates.tail
        turns := s.turns.tail
        result := if rest = [] then some .success else s.result }

/-! ### Failure, and writes that never complete -/

/-- 20_memory.md R54, 10_state.md R30, R33, 43_device_commands.md R135: where a write would have put a message on the
wire, a failing write leaves a prefix of it, abandons the operation, and makes the session Failed; DisplayState keeps
its value. How long the prefix is, is a free value (log entry 6). That the ports and the responses are those of the
completed write is log entry 23. -/
def Obligations.FailedWriteStopsOperation : Prop :=
  ∀ (s u : State) (i : Instr) (rest : List WriteFate), s.fates = .fails :: rest →
    exec i { s with fates := .completes :: rest } = .next u → u.wire ≠ s.wire →
    ∃ (t : State) (k : MessageKind) (bytes : List Byte) (n : Nat),
      u.wire = s.wire ++ [⟨k, bytes, .completes⟩] ∧
      exec i s = .next t ∧ t.wire = s.wire ++ [⟨k, bytes.take n, .fails⟩] ∧
      t.session = .failed ∧ t.result = some (.error .transportError) ∧ t.raster = [] ∧ t.current = [] ∧
      t.display = s.display ∧ t.fates = rest ∧ t.program = s.program ∧ t.hung = s.hung ∧
      t.responses = u.responses ∧ t.ports = u.ports ∧ t.bitmaps = u.bitmaps ∧ t.transport = u.transport

/-- 43_device_commands.md R133, R135 (95_test_vectors.md W6): a failing row leaves a prefix of itself and no later row
is written. -/
def Obligations.FailedRowAbortsBitmap : Prop :=
  ∀ (s : State) (row : List Rgb) (rest : List (List Rgb)), s.raster = row :: rest → s.session ≠ .failed →
    s.hung = false → s.transport ≠ none → s.nextFate = .fails → s.turns.head? ≠ some .caller →
    ∃ (t : State) (n : Nat), step s = .next t ∧
      t.wire = s.wire ++ [⟨.row, (messageBytes Config.pixelWireOrder (rowItems row)).take n, .fails⟩] ∧
      t.session = .failed ∧ t.raster = [] ∧ t.current = [] ∧ t.result = some (.error .transportError) ∧
      t.display = s.display

/-- 10_state.md R30, 93_implementation_defined.md U14: nothing leaves the Failed state, and a Failed session writes
nothing more. -/
def Obligations.FailedSessionStuck : Prop :=
  (∀ s t : State, s.session = .failed → step s = .next t →
    t.session = .failed ∧ t.wire = s.wire ∧ t.display = s.display ∧ t.transport = s.transport) ∧
  (∀ (s : State) (i : Instr) (k : MessageKind), s.session = .failed → s.raster = [] → s.messageOf i = some k →
    (∀ x y x2 y2, i ≠ .displayBitmap x y x2 y2) → exec i s = .fault .sessionFailed)

/-- 60_exceptions.md R158: where a write would have put a message or a row on the wire, one that never completes leaves
a prefix of it, of a length that is a free value, and is then in flight; the operation is stuck and not failed, and keeps
what it still has to issue (log entry 7). That the ports and the responses are those of the completed write is log entry
23. -/
def Obligations.HungWriteKeepsOperation : Prop :=
  (∀ (s u : State) (i : Instr) (rest : List WriteFate), s.fates = .hangs :: rest →
    exec i { s with fates := .completes :: rest } = .next u → u.wire ≠ s.wire →
    ∃ (t : State) (k : MessageKind) (bytes : List Byte) (n : Nat),
      u.wire = s.wire ++ [⟨k, bytes, .completes⟩] ∧
      exec i s = .next t ∧ t.wire = s.wire ++ [⟨k, bytes.take n, .hangs⟩] ∧ t.hung = true ∧
      t.session = s.session ∧ t.display = s.display ∧ t.raster = s.raster ∧ t.current = s.current ∧
      t.result = s.result ∧ t.fates = rest ∧ t.program = s.program ∧
      t.responses = u.responses ∧ t.ports = u.ports ∧ t.bitmaps = u.bitmaps ∧ t.transport = u.transport) ∧
  (∀ (s : State) (row : List Rgb) (rest : List (List Rgb)), s.raster = row :: rest → s.session ≠ .failed →
    s.hung = false → s.transport ≠ none → s.nextFate = .hangs → s.turns.head? ≠ some .caller →
    ∃ (t : State) (n : Nat), step s = .next t ∧
      t.wire = s.wire ++ [⟨.row, (messageBytes Config.pixelWireOrder (rowItems row)).take n, .hangs⟩] ∧
      t.hung = true ∧ t.session = s.session ∧ t.display = s.display ∧ t.raster = s.raster ∧
      t.current = s.current ∧ t.result = s.result)

/-- 60_exceptions.md R158: a write that never completes blocks its owner for ever; another message is a fault, a
DisplayBitmap's header included, and a caller's request to the FCE is still answered. That the owner's step is then a
wait, which changes only the turn, is the model's reading (log entry 7), and that a caller has turns of its own is log
entry 11. -/
def Obligations.HungWriteBlocksOwner : Prop :=
  (∀ s : State, s.hung = true → s.turns.head? ≠ some .caller → step s = .next { s with turns := s.turns.tail }) ∧
  (∀ s t : State, s.hung = true → step s = .next t → t.hung = true ∧ t.session = s.session ∧ t.wire = s.wire) ∧
  (∀ (s : State) (i : Instr) (k : MessageKind), s.hung = true → s.session ≠ .failed → s.messageOf i = some k →
    (∀ x y x2 y2, i ≠ .displayBitmap x y x2 y2) → exec i s = .fault .operationInFlight) ∧
  (∀ (s : State) (x y : Int) (img : Image) (rest : List BitmapCall), s.hung = true → s.session ≠ .failed →
    s.bitmaps = { x := x, y := y, decoded := .image img } :: rest → img.Drawable →
    exec (bitmapInstr x y img.width img.height) s = .fault .operationInFlight) ∧
  (∀ (s : State) (q : RequestWord) (ops : List (List Word)), s.hung = true → s.turns.head? = some .caller →
    s.program = [.request q] :: ops → q.extractLsb' 72 2 ≠ 3#2 →
    ∃ (t : State) (r : Response), step s = .next t ∧ t.responses = s.responses ++ [r] ∧ t.wire = s.wire ∧
      t.hung = true ∧ t.program = ops)

/-! ### The order of messages -/

/-- 70_reset_and_hazards.md R174: whatever is not the next init message is refused until init has written its three. -/
def Obligations.MessagesBeforeInitRefused : Prop :=
  ∀ (s : State) (i : Instr) (k : MessageKind), i.wellFormed = true → s.session ≠ .failed → s.hung = false →
    s.messageOf i = some k →
    (s.kinds = [] → k ≠ .reset → runWord (encode i) s = .refused .beforeInit) ∧
    (s.kinds = [.reset] → k ≠ .geometryReset → runWord (encode i) s = .refused .beforeInit) ∧
    (s.kinds = [.reset, .geometryReset] → k ≠ .setOrientation .portrait false →
      runWord (encode i) s = .refused .beforeInit)

/-- 70_reset_and_hazards.md R177, R178, R179: where the wire stands among a bitmap's rows, every device command that
would write a message is a host fault; after a geometry reset, every one but a SetOrientation is; between two operations
a SetOrientation is refused for want of its geometry reset (that it is a refusal is log entry 15's choice), and so is a
Reset (log entry 26's choice). While rows are due the meanings alone fault too, but for DisplayBitmap, which first looks
at its image, and Reset, which first opens the Transport. -/
def Obligations.OneOperationAtATime : Prop :=
  (∀ (s : State) (i : Instr) (k : MessageKind) (more : Nat), i.wellFormed = true → s.session ≠ .failed →
    s.hung = false → s.messageOf i = some k → s.phase = .next (.rows more) →
    runWord (encode i) s = .fault .operationInFlight) ∧
  (∀ (s : State) (i : Instr) (k : MessageKind), i.wellFormed = true → s.session ≠ .failed → s.hung = false →
    s.messageOf i = some k → s.phase = .next .geometrySent → (∀ o reverse, k ≠ .setOrientation o reverse) →
    runWord (encode i) s = .fault .operationInFlight) ∧
  (∀ (s : State) (o : Orientation) (reverse : Bool) (slot : OrientParamSlot), s.session ≠ .failed → s.hung = false →
    s.phase = .next .idle →
    runWord (encode (orientationInstr slot o reverse)) s = .refused .handshakeMissing ∧
    runWord (encode .reset) s = .refused .resetAfterInit) ∧
  (∀ (s : State) (i : Instr) (k : MessageKind), s.raster ≠ [] → s.session ≠ .failed → s.messageOf i = some k →
    (∀ x y x2 y2, i ≠ .displayBitmap x y x2 y2) → i ≠ .reset → exec i s = .fault .operationInFlight)

/-- The invariant holds right after reset. -/
def Obligations.ResetMeetsInvariant : Prop := State.reset.Inv

/-- Every step keeps the invariant: the boot order, the handshake and the contiguous raster of 70_reset_and_hazards.md
R174, R177, R179 hold of the wire whatever the host issues, the dimensions are those of R32, and a Ready session has a
DisplayState. -/
def Obligations.StepKeepsInvariant : Prop := ∀ s t : State, s.Inv → step s = .next t → t.Inv

/-- What the invariant says of the wire, in the rules' own words: it begins with the three init messages or is a part of
their beginning (70_reset_and_hazards.md R174); every SetOrientation comes immediately after a geometry reset (R179);
between a bitmap header and its last row nothing else is written, and a row stands only there (R177); a Reset is the
first message (43_device_commands.md R121; log entry 26). -/
def Obligations.InvariantMeansOrderRules : Prop :=
  ∀ s : State, s.Inv →
    (s.kinds <+: initKinds ∨ initKinds <+: s.kinds) ∧
    (∀ pre post o reverse, s.kinds = pre ++ .setOrientation o reverse :: post → pre.getLast? = some .geometryReset) ∧
    (∀ pre post h, s.kinds = pre ++ .bitmapHeader h :: post →
      ∃ n more, post = List.replicate n .row ++ more ∧ n ≤ h ∧ (more = [] ∨ n = h)) ∧
    (∀ pre post, s.kinds = pre ++ .row :: post →
      ∃ pre' h n, pre = pre' ++ .bitmapHeader h :: List.replicate n .row ∧ n < h) ∧
    (∀ pre post, s.kinds = pre ++ .reset :: post → pre = [])

/-- 20_memory.md R49, R50, 43_device_commands.md R135: messages go on the wire in order, at its end, and none is taken
back. That a step puts at most one there is the model's choice of what one step is (log entry 14). -/
def Obligations.WireOnlyGrows : Prop :=
  ∀ s t : State, step s = .next t → ∃ more : List Written, t.wire = s.wire ++ more ∧ more.length ≤ 1

/-- 10_state.md R31, R33: only a SetOrientation whose write succeeded changes DisplayState. -/
def Obligations.DisplayChangedOnlyBySetOrientation : Prop :=
  ∀ s t : State, step s = .next t → t.display ≠ s.display →
    ∃ (o : Orientation) (reverse : Bool) (bytes : List Byte),
      t.wire = s.wire ++ [⟨.setOrientation o reverse, bytes, .completes⟩] ∧
      t.display = some (if o = .landscape then { width := 480, height := 320, orientation := o, reverse := reverse }
        else { width := 320, height := 480, orientation := o, reverse := reverse })

/-- 10_state.md R30: the session leaves Uninitialized to Ready only when init's last write succeeds, in a step of the
operation that wrote the others and is still in progress (log entry 24), and to Failed only on a transport error;
nothing goes back. -/
def Obligations.SessionTransitions : Prop :=
  ∀ s t : State, step s = .next t → t.session ≠ s.session →
    (s.session = .uninitialized ∧ t.session = .ready ∧ (∃ w, s.current = w :: t.current) ∧
      t.kinds = [.reset, .geometryReset, .setOrientation .portrait false] ∧
      t.display = some { width := 320, height := 480, orientation := .portrait, reverse := false }) ∨
    (s.session ≠ .failed ∧ t.session = .failed ∧ t.result = some (.error .transportError))

/-- 10_state.md R34, 70_reset_and_hazards.md R173: the session is created Uninitialized, and reading DisplayState faults
exactly while it is unspecified, as it is then. -/
def Obligations.ResetSession : Prop :=
  State.reset.session = .uninitialized ∧ State.reset.readDisplay = .fault .displayUnspecified ∧
  ∀ s : State, (s.readDisplay = .fault .displayUnspecified ↔ s.display = none) ∧
    ∀ d, s.display = some d → s.readDisplay = .next d

/-! ### Steps and whole operations -/

/-- A step runs the decoded instruction. On the owner's turn the word that is due next, decoded and let through by the
wire, is executed, and the step adds only that the word is no longer due and one turn is over. A word of another
operation while one is in progress, on a caller's turn or where the stream stands inside an operation that has issued
all its words, is the host's fault if it is of a host operation (60_exceptions.md R162, 70_reset_and_hazards.md R178; log
entry 11), and is executed, without becoming part of the operation in progress, if it is not. A caller whose turn comes
while nothing is in progress is an owner. -/
def Obligations.StepRunsDecodedInstruction : Prop :=
  (∀ (s : State) (w : Word) (ws : List Word) (i : Instr), s.turns.head? ≠ some .caller → s.hung = false →
    s.raster = [] → decode w = .ok i → s.admits i = .next () →
    (s.current = w :: ws → step s = exec i { s with current := ws, turns := s.turns.tail }) ∧
    (∀ ops, s.current = [] → s.midOperation = false → s.program = (w :: ws) :: ops →
      step s = exec i { s with current := ws, program := ops, turns := s.turns.tail })) ∧
  (∀ (s : State) (w : Word) (ws : List Word) (ops : List (List Word)) (i : Instr), decode w = .ok i →
    s.program = (w :: ws) :: ops →
    (s.turns.head? = some .caller ∧ s.busy = true) ∨
      (s.turns.head? ≠ some .caller ∧ s.hung = false ∧ s.raster = [] ∧ s.current = [] ∧ s.midOperation = true) →
    (ofHostOperation i = true → step s = .fault .operationInFlight) ∧
    (ofHostOperation i = false →
      step s = exec i { s with program := if ws = [] then ops else ws :: ops, turns := s.turns.tail })) ∧
  (∀ s : State, s.turns.head? = some .caller → s.busy = false → step s = step { s with turns := .owner :: s.turns.tail })

/-- 60_exceptions.md R162, 20_memory.md R50: a caller that does not wait for the operation in progress writes nothing
between its messages, and changes nothing of the session. -/
def Obligations.CallerCannotInterleave : Prop :=
  ∀ s t : State, s.turns.head? = some .caller → s.busy = true → step s = .next t →
    t.wire = s.wire ∧ t.session = s.session ∧ t.display = s.display ∧ t.transport = s.transport ∧ t.hung = s.hung ∧
    t.raster = s.raster ∧ t.current = s.current ∧ t.bitmaps = s.bitmaps ∧ t.result = s.result ∧ t.fates = s.fates

/-- An instruction placed from outside is the very next one, and the step runs exactly it (log entry 3). -/
def Obligations.PlacedWordRunsNext : Prop :=
  ∀ (s : State) (nbits w : Nat) (i : Instr), decodeTableWord nbits w = some i →
    step (s.withFetchWord nbits w) =
      exec i { s.withFetchWord nbits w with current := s.current, turns := s.turns }

/-- 43_device_commands.md R131, 70_reset_and_hazards.md R174: init opens the Transport and writes its three messages;
then the session is Ready and DisplayState is that of Portrait. That this takes three steps, one for each message, is
the model's choice (log entry 14), and so is that the Transport is opened in the step of Reset, and that one that is open
already stays as it is (log entry 9); that the session becomes Ready in the step of the third write is the model's
reading (log entry 24). The path is the host's input (log entry 27). -/
def Obligations.InitRuns : Prop :=
  ∀ (s : State) (ops : List (List Word)), s.session = .uninitialized → s.wire = [] → s.hung = false →
    s.raster = [] → (s.transport = none → s.openFails = false) → s.current = [] → s.turns = [] →
    (∀ fate ∈ s.fates, fate = .completes) → s.program = HostCall.init.words Config.orientParamSlot :: ops →
    ∃ t : State, Host.Core.run Sys2Proof.core 3 s = .next t ∧ t.session = .ready ∧
      t.display = some { width := 320, height := 480, orientation := .portrait, reverse := false } ∧
      t.transport = some (s.transport.getD
        { path := s.openPath, baud := 9600, dataBits := 8, stopBits := 1, parity := .none }) ∧
      t.wire.map Written.bytes = [[0, 0, 0, 0, 0, 0xFF], geometryResetMessage,
        orientationMessage Config.orientParamSlot .portrait false] ∧
      t.result = some .success ∧ t.program = ops

/-- 43_device_commands.md R122 to R125, R130, R133: from a Ready session between two operations, a host operation whose
writes all complete puts exactly its messages on the wire, in order, answers success, and leaves the session between two
operations. That it takes as many steps as it has messages, a bitmap's rows one a step, is the model's choice (log entry
14). -/
def Obligations.HostOperationWritesItsMessages : Prop :=
  ∀ (s : State) (c : HostCall) (ops : List (List Word)) (calls : List BitmapCall), s.Quiet → c ≠ .init → c.Drawable →
    s.program = c.words Config.orientParamSlot :: ops → s.bitmaps = c.bitmaps ++ calls →
    (∀ fate ∈ s.fates, fate = .completes) →
    ∃ t : State, Host.Core.run Sys2Proof.core (c.messages Config.orientParamSlot).length s = .next t ∧ t.Quiet ∧
      t.wire.map Written.bytes = s.wire.map Written.bytes ++ c.bytes Config.pixelWireOrder Config.orientParamSlot ∧
      t.result = some .success ∧ t.program = ops ∧ t.bitmaps = calls

/-- 43_device_commands.md R134, 92_eei_decisions.md D20: the header carries the Rectangle modulo 1024, nothing clipped,
whether it is reached from the host's integers or from the instruction. -/
def Obligations.RectangleWrapsOnWire : Prop :=
  ∀ (x y : Int) (w h : Nat), ∃ f : CommandFrame,
    (∀ order, messageBytes order (headerFor x y w h) = f.bytes) ∧ f.unopc = 0xC5 ∧
    (f.unp1.toNat : Int) = x % 1024 ∧ (f.unp2.toNat : Int) = y % 1024 ∧
    (f.unp3.toNat : Int) = (x + w - 1) % 1024 ∧ (f.unp4.toNat : Int) = (y + h - 1) % 1024 ∧
    bitmapInstr x y w h = .displayBitmap f.unp1 f.unp2 f.unp3 f.unp4

/-- 43_device_commands.md R132: the lengths of the messages. -/
def Obligations.MessageLengths : Prop :=
  ∀ (order : PixelWireOrder) (slot : OrientParamSlot),
    (∀ c ∈ [HostCall.clear, .toBlack, .screenOff, .screenOn], (c.bytes order slot).map List.length = [6]) ∧
    ((HostCall.init.bytes order slot).map List.length =
      match slot with
      | .p1 => [6, 16, 15]
      | .trailingByte => [6, 16, 16]) ∧
    (∀ o reverse, ((HostCall.setOrientation o reverse).bytes order slot).map List.length =
      match slot with
      | .p1 => [16, 15]
      | .trailingByte => [16, 16]) ∧
    (∀ x y img, img.Drawable → ((HostCall.displayBitmap x y (.image img)).bytes order slot).map List.length =
      6 :: List.replicate img.height (2 * img.width))

/-- 43_device_commands.md R132: a reader of the wire finds the message boundaries of any sequence of host operations
whose Rectangles do not wrap. -/
def Obligations.ReaderFindsMessageBoundaries : Prop :=
  ∀ (order : PixelWireOrder) (slot : OrientParamSlot) (calls : List HostCall), (∀ c ∈ calls, c.Unwrapped) →
    readStream slot (calls.flatMap fun c => c.bytes order slot).length
      (calls.flatMap fun c => c.bytes order slot).flatten = .ok (calls.flatMap fun c => c.bytes order slot)

/-- 20_memory.md R44: red, green and blue in the ColorWord from the most significant bits down, the FCE's output one
16-bit word, and its two wire orders. -/
def Obligations.PixelWireOrders : Prop :=
  ∀ (r g b : Byte) (s : State), ∃ (t : State) (c : BitVec 16),
    exec (.packColor r g b) s = .next t ∧ t.color = c ∧
    c.toNat = ((c.extractLsb' 11 5).toNat <<< 11) ||| ((c.extractLsb' 5 6).toNat <<< 5) ||| (c.extractLsb' 0 5).toNat ∧
    (c.extractLsb' 11 5).toNat = scale r 31 ∧ (c.extractLsb' 5 6).toNat = scale g 63 ∧
    (c.extractLsb' 0 5).toNat = scale b 31 ∧
    serializeColor .le c = [c.extractLsb' 0 8, c.extractLsb' 8 8] ∧
    serializeColor .be c = [c.extractLsb' 8 8, c.extractLsb' 0 8]

/-- 30_encoding.md R70, R74: the assembler takes every operand that fits its field, an omitted one as 0, and refuses any
other. -/
def Obligations.AssemblerRefusesWideOperands : Prop :=
  (∀ (opc : Nat) (ps : List Nat),
    (opc < 256 ∧ ps.length ≤ 4 ∧ (∀ p ∈ ps, p < 65536) →
      assemblePackCmd opc ps = .ok (.packCmd (BitVec.ofNat 8 opc) (BitVec.ofNat 16 (ps.getD 0 0))
        (BitVec.ofNat 16 (ps.getD 1 0)) (BitVec.ofNat 16 (ps.getD 2 0)) (BitVec.ofNat 16 (ps.getD 3 0)))) ∧
    (¬ (opc < 256 ∧ ps.length ≤ 4 ∧ ∀ p ∈ ps, p < 65536) → assemblePackCmd opc ps = .error .validationError)) ∧
  (∀ n : Nat, (n < 65536 → assemblePackU16 n = .ok (.packU16 (BitVec.ofNat 16 n))) ∧
    (¬ n < 65536 → assemblePackU16 n = .error .validationError)) ∧
  (∀ r g b : Nat, (r < 256 ∧ g < 256 ∧ b < 256 →
      assemblePackColor r g b = .ok (.packColor (BitVec.ofNat 8 r) (BitVec.ofNat 8 g) (BitVec.ofNat 8 b))) ∧
    (¬ (r < 256 ∧ g < 256 ∧ b < 256) → assemblePackColor r g b = .error .validationError))

/-- 30_encoding.md R75: the pseudo-instructions, and that there is none for SetBrightness. -/
def Obligations.PseudoInstructionsExpand : Prop :=
  (∀ (p : Pseudo) (slot : OrientParamSlot) (p1 p2 p3 p4 : BitVec 16), .instr (.cmd 0x6E p1 p2 p3 p4) ∉ p.items slot) ∧
  ∀ (slot : OrientParamSlot) (x y x2 y2 : BitVec 16) (f : Byte),
    Pseudo.reset.items slot = [.instr (.cmd 0xFF 0 0 0 0)] ∧ Pseudo.clear.items slot = [.instr (.cmd 0x66 0 0 0 0)] ∧
    Pseudo.toBlack.items slot = [.instr (.cmd 0x67 0 0 0 0)] ∧
    Pseudo.screenOff.items slot = [.instr (.cmd 0x6C 0 0 0 0)] ∧
    Pseudo.screenOn.items slot = [.instr (.cmd 0x6D 0 0 0 0)] ∧
    Pseudo.geomReset.items slot = [.instr (.cmd 0x7A 0 0 0 0)] ∧
    (Pseudo.bitmap x y x2 y2).items slot = [.instr (.cmd 0xC5 x y x2 y2)] ∧
    (Pseudo.orient f).items .p1 = [.instr (.cmd 0x79 (f.setWidth 16) 0 0 0)] ∧
    (Pseudo.orient f).items .trailingByte = [.instr (.cmd 0x79 0 0 0 0), .byte f]
end

