-- ==== Sys2Proof/Laws/Codec.lean ====
section
/-! SUPPORT. The codecs and the messages: a field of a field, unpacking what was packed, and the bytes and lengths of
the messages. -/

namespace Sys2Proof.Machine

/-- A slice of a slice is one slice. -/
theorem extractLsb'_extractLsb' {w : Nat} (x : BitVec w) (a b c d : Nat) (h : c + d ≤ b) :
    (x.extractLsb' a b).extractLsb' c d = x.extractLsb' (a + c) d := by
  apply BitVec.eq_of_getElem_eq
  intro i hi
  simp [BitVec.getElem_extractLsb', BitVec.getLsbD_extractLsb']
  rw [decide_eq_true (by omega), Bool.true_and, Nat.add_assoc]

/-- Unpacking a packed frame gives its fields (41_frame_encoder.md R85). -/
theorem packFields_unpack (opcode : Byte) (a b c d : BitVec 10) :
    (packFields opcode a b c d).unp1 = a ∧ (packFields opcode a b c d).unp2 = b ∧
    (packFields opcode a b c d).unp3 = c ∧ (packFields opcode a b c d).unp4 = d := by
  refine ⟨?_, ?_, ?_, ?_⟩ <;>
  · simp only [CommandFrame.unp1, CommandFrame.unp2, CommandFrame.unp3, CommandFrame.unp4, packFields]
    apply BitVec.eq_of_getElem_eq
    intro i hi
    simp only [BitVec.getElem_append, BitVec.getElem_extractLsb', BitVec.getLsbD_append, BitVec.getLsbD_extractLsb']
    have hi' : i < 10 := hi
    interval_cases i <;> simp [BitVec.getLsbD_eq_getElem]

/-- What a frame keeps of a host integer, as a number. -/
theorem fieldOfInt_toNat (n : Int) : ((fieldOfInt n).toNat : Int) = n % 1024 := by
  simp [fieldOfInt, meaningfulBits, portOfInt, BitVec.toNat_ofInt]
  omega

/-- The Rectangle of an image whose rows have its width is the one its instruction carries. -/
theorem Image.fills_rectangle {img : Image} (h : ∀ row ∈ img.rows, row.length = img.width) (x y : Int) :
    img.fills x y (fieldOfInt x) (fieldOfInt y) (fieldOfInt (x + img.width - 1)) (fieldOfInt (y + img.height - 1)) =
      true := by
  simpa [Image.fills, Image.wf, rectangle] using h

/-- The bytes of the geometry-reset message do not depend on the pixel order. -/
theorem geometryResetItems_bytes (order : PixelWireOrder) :
    messageBytes order geometryResetItems = geometryResetMessage := by
  cases order <;> decide

/-- The bytes of a SetOrientation message. -/
theorem setOrientationItems_bytes (order : PixelWireOrder) (slot : OrientParamSlot) (o : Orientation) (reverse : Bool) :
    messageBytes order (setOrientationItems slot o reverse) = orientationMessage slot o reverse := by
  cases order <;> cases slot <;> cases o <;> cases reverse <;> decide

/-- The bytes of a bitmap header are those of the frame of its 16-bit port values. -/
theorem headerFor_bytes (order : PixelWireOrder) (x y : Int) (w h : Nat) :
    messageBytes order (headerFor x y w h) =
      (packFrame 0xC5#8 (portOfInt x) (portOfInt y) (portOfInt (x + w - 1)) (portOfInt (y + h - 1))).bytes := by
  cases order <;> rfl

/-- A row with one more sample. -/
theorem rowItems_bytes_cons (order : PixelWireOrder) (px : Rgb) (row : List Rgb) :
    messageBytes order (rowItems (px :: row)) =
      serializeColor order (packColorWord px.r px.g px.b) ++ messageBytes order (rowItems row) := by
  cases order <;> rfl

/-- A row is two bytes for each sample. -/
theorem rowItems_bytes_length (order : PixelWireOrder) (row : List Rgb) :
    (messageBytes order (rowItems row)).length = 2 * row.length := by
  induction row with
  | nil => rfl
  | cons px row ih =>
    rw [rowItems_bytes_cons, List.length_append, ih]
    cases order <;> simp [serializeColor] <;> omega

/-- The SetOrientation instruction of an operation asks for that orientation, wherever its byte stands. -/
theorem orientationInstr_operand (slot : OrientParamSlot) (o : Orientation) (reverse : Bool) :
    ∃ p1 p2 p3 p4 after, orientationInstr slot o reverse = .setOrientation p1 p2 p3 p4 after ∧
      orientationOperand p1 p2 p3 p4 after = some (o, reverse) := by
  cases slot <;> cases o <;> cases reverse <;> exact ⟨_, _, _, _, _, rfl, by decide⟩

/-- It is well formed. -/
theorem orientationInstr_wellFormed (slot : OrientParamSlot) (o : Orientation) (reverse : Bool) :
    (orientationInstr slot o reverse).wellFormed = true := by
  cases slot <;> cases o <;> cases reverse <;> decide

/-- Taking a message of known length off a stream. -/
theorem takeMessage_append {n : Nat} (msg rest : List Byte) (h : msg.length = n) :
    takeMessage n (msg ++ rest) = .ok (msg, rest) := by
  subst h
  simp [takeMessage]

/-- Taking rows of one length off a stream. -/
theorem takeRows_append (n : Nat) (rows : List (List Byte)) (rest : List Byte) (h : ∀ row ∈ rows, row.length = n) :
    takeRows n rows.length (rows.flatten ++ rest) = .ok (rows, rest) := by
  induction rows with
  | nil => rfl
  | cons row rows ih =>
    rw [List.length_cons, takeRows, List.flatten_cons, List.append_assoc,
      takeMessage_append _ _ (h row (by simp))]
    simp only [ih (fun row' hr => h row' (by simp [hr]))]

end Sys2Proof.Machine
end

