-- ==== Sys2Proof/Laws/State.lean ====
section
/-! SUPPORT. One lemma for each field of each named update of the state, so that no proof unfolds a record update. -/

namespace Sys2Proof.Machine

/-! `State.present` -/

@[simp] theorem State.present_ports (s : State) (q : Request) : (s.present q).ports = s.ports.drive q := rfl
@[simp] theorem State.present_responses (s : State) (q : Request) : (s.present q).responses = s.responses ++ [fce q] := rfl
@[simp] theorem State.present_session (s : State) (q : Request) : (s.present q).session = s.session := rfl
@[simp] theorem State.present_display (s : State) (q : Request) : (s.present q).display = s.display := rfl
@[simp] theorem State.present_transport (s : State) (q : Request) : (s.present q).transport = s.transport := rfl
@[simp] theorem State.present_wire (s : State) (q : Request) : (s.present q).wire = s.wire := rfl
@[simp] theorem State.present_hung (s : State) (q : Request) : (s.present q).hung = s.hung := rfl
@[simp] theorem State.present_raster (s : State) (q : Request) : (s.present q).raster = s.raster := rfl
@[simp] theorem State.present_result (s : State) (q : Request) : (s.present q).result = s.result := rfl
@[simp] theorem State.present_current (s : State) (q : Request) : (s.present q).current = s.current := rfl
@[simp] theorem State.present_program (s : State) (q : Request) : (s.present q).program = s.program := rfl
@[simp] theorem State.present_bitmaps (s : State) (q : Request) : (s.present q).bitmaps = s.bitmaps := rfl
@[simp] theorem State.present_fates (s : State) (q : Request) : (s.present q).fates = s.fates := rfl
@[simp] theorem State.present_openFails (s : State) (q : Request) : (s.present q).openFails = s.openFails := rfl
@[simp] theorem State.present_openPath (s : State) (q : Request) : (s.present q).openPath = s.openPath := rfl
@[simp] theorem State.present_turns (s : State) (q : Request) : (s.present q).turns = s.turns := rfl
@[simp] theorem State.present_draws (s : State) (q : Request) : (s.present q).draws = s.draws := rfl

/-! `State.written` -/

@[simp] theorem State.written_ports (s : State) (k : MessageKind) (bs : List Byte) : (s.written k bs).ports = s.ports := rfl
@[simp] theorem State.written_responses (s : State) (k : MessageKind) (bs : List Byte) : (s.written k bs).responses = s.responses := rfl
@[simp] theorem State.written_session (s : State) (k : MessageKind) (bs : List Byte) : (s.written k bs).session = s.session := rfl
@[simp] theorem State.written_display (s : State) (k : MessageKind) (bs : List Byte) : (s.written k bs).display = s.display := rfl
@[simp] theorem State.written_transport (s : State) (k : MessageKind) (bs : List Byte) : (s.written k bs).transport = s.transport := rfl
@[simp] theorem State.written_wire (s : State) (k : MessageKind) (bs : List Byte) : (s.written k bs).wire = s.wire ++ [⟨k, bs, .completes⟩] := rfl
@[simp] theorem State.written_hung (s : State) (k : MessageKind) (bs : List Byte) : (s.written k bs).hung = s.hung := rfl
@[simp] theorem State.written_raster (s : State) (k : MessageKind) (bs : List Byte) : (s.written k bs).raster = s.raster := rfl
@[simp] theorem State.written_result (s : State) (k : MessageKind) (bs : List Byte) : (s.written k bs).result = s.result := rfl
@[simp] theorem State.written_current (s : State) (k : MessageKind) (bs : List Byte) : (s.written k bs).current = s.current := rfl
@[simp] theorem State.written_program (s : State) (k : MessageKind) (bs : List Byte) : (s.written k bs).program = s.program := rfl
@[simp] theorem State.written_bitmaps (s : State) (k : MessageKind) (bs : List Byte) : (s.written k bs).bitmaps = s.bitmaps := rfl
@[simp] theorem State.written_fates (s : State) (k : MessageKind) (bs : List Byte) : (s.written k bs).fates = s.fates.tail := rfl
@[simp] theorem State.written_openFails (s : State) (k : MessageKind) (bs : List Byte) : (s.written k bs).openFails = s.openFails := rfl
@[simp] theorem State.written_openPath (s : State) (k : MessageKind) (bs : List Byte) : (s.written k bs).openPath = s.openPath := rfl
@[simp] theorem State.written_turns (s : State) (k : MessageKind) (bs : List Byte) : (s.written k bs).turns = s.turns := rfl
@[simp] theorem State.written_draws (s : State) (k : MessageKind) (bs : List Byte) : (s.written k bs).draws = s.draws := rfl

/-! `State.writeFailed` -/

@[simp] theorem State.writeFailed_ports (s : State) (k : MessageKind) (bs : List Byte) : (s.writeFailed k bs).ports = s.ports := rfl
@[simp] theorem State.writeFailed_responses (s : State) (k : MessageKind) (bs : List Byte) : (s.writeFailed k bs).responses = s.responses := rfl
@[simp] theorem State.writeFailed_session (s : State) (k : MessageKind) (bs : List Byte) : (s.writeFailed k bs).session = .failed := rfl
@[simp] theorem State.writeFailed_display (s : State) (k : MessageKind) (bs : List Byte) : (s.writeFailed k bs).display = s.display := rfl
@[simp] theorem State.writeFailed_transport (s : State) (k : MessageKind) (bs : List Byte) : (s.writeFailed k bs).transport = s.transport := rfl
@[simp] theorem State.writeFailed_wire (s : State) (k : MessageKind) (bs : List Byte) : (s.writeFailed k bs).wire = s.wire ++ [⟨k, bs.take (Config.failedPrefix s.draws), .fails⟩] := rfl
@[simp] theorem State.writeFailed_hung (s : State) (k : MessageKind) (bs : List Byte) : (s.writeFailed k bs).hung = s.hung := rfl
@[simp] theorem State.writeFailed_raster (s : State) (k : MessageKind) (bs : List Byte) : (s.writeFailed k bs).raster = [] := rfl
@[simp] theorem State.writeFailed_result (s : State) (k : MessageKind) (bs : List Byte) : (s.writeFailed k bs).result = some (.error .transportError) := rfl
@[simp] theorem State.writeFailed_current (s : State) (k : MessageKind) (bs : List Byte) : (s.writeFailed k bs).current = [] := rfl
@[simp] theorem State.writeFailed_program (s : State) (k : MessageKind) (bs : List Byte) : (s.writeFailed k bs).program = s.program := rfl
@[simp] theorem State.writeFailed_bitmaps (s : State) (k : MessageKind) (bs : List Byte) : (s.writeFailed k bs).bitmaps = s.bitmaps := rfl
@[simp] theorem State.writeFailed_fates (s : State) (k : MessageKind) (bs : List Byte) : (s.writeFailed k bs).fates = s.fates.tail := rfl
@[simp] theorem State.writeFailed_openFails (s : State) (k : MessageKind) (bs : List Byte) : (s.writeFailed k bs).openFails = s.openFails := rfl
@[simp] theorem State.writeFailed_openPath (s : State) (k : MessageKind) (bs : List Byte) : (s.writeFailed k bs).openPath = s.openPath := rfl
@[simp] theorem State.writeFailed_turns (s : State) (k : MessageKind) (bs : List Byte) : (s.writeFailed k bs).turns = s.turns := rfl
@[simp] theorem State.writeFailed_draws (s : State) (k : MessageKind) (bs : List Byte) : (s.writeFailed k bs).draws = s.draws + 1 := rfl

/-! `State.writeHung` -/

@[simp] theorem State.writeHung_ports (s : State) (k : MessageKind) (bs : List Byte) : (s.writeHung k bs).ports = s.ports := rfl
@[simp] theorem State.writeHung_responses (s : State) (k : MessageKind) (bs : List Byte) : (s.writeHung k bs).responses = s.responses := rfl
@[simp] theorem State.writeHung_session (s : State) (k : MessageKind) (bs : List Byte) : (s.writeHung k bs).session = s.session := rfl
@[simp] theorem State.writeHung_display (s : State) (k : MessageKind) (bs : List Byte) : (s.writeHung k bs).display = s.display := rfl
@[simp] theorem State.writeHung_transport (s : State) (k : MessageKind) (bs : List Byte) : (s.writeHung k bs).transport = s.transport := rfl
@[simp] theorem State.writeHung_wire (s : State) (k : MessageKind) (bs : List Byte) : (s.writeHung k bs).wire = s.wire ++ [⟨k, bs.take (Config.hungPrefix s.draws), .hangs⟩] := rfl
@[simp] theorem State.writeHung_hung (s : State) (k : MessageKind) (bs : List Byte) : (s.writeHung k bs).hung = true := rfl
@[simp] theorem State.writeHung_raster (s : State) (k : MessageKind) (bs : List Byte) : (s.writeHung k bs).raster = s.raster := rfl
@[simp] theorem State.writeHung_result (s : State) (k : MessageKind) (bs : List Byte) : (s.writeHung k bs).result = s.result := rfl
@[simp] theorem State.writeHung_current (s : State) (k : MessageKind) (bs : List Byte) : (s.writeHung k bs).current = s.current := rfl
@[simp] theorem State.writeHung_program (s : State) (k : MessageKind) (bs : List Byte) : (s.writeHung k bs).program = s.program := rfl
@[simp] theorem State.writeHung_bitmaps (s : State) (k : MessageKind) (bs : List Byte) : (s.writeHung k bs).bitmaps = s.bitmaps := rfl
@[simp] theorem State.writeHung_fates (s : State) (k : MessageKind) (bs : List Byte) : (s.writeHung k bs).fates = s.fates.tail := rfl
@[simp] theorem State.writeHung_openFails (s : State) (k : MessageKind) (bs : List Byte) : (s.writeHung k bs).openFails = s.openFails := rfl
@[simp] theorem State.writeHung_openPath (s : State) (k : MessageKind) (bs : List Byte) : (s.writeHung k bs).openPath = s.openPath := rfl
@[simp] theorem State.writeHung_turns (s : State) (k : MessageKind) (bs : List Byte) : (s.writeHung k bs).turns = s.turns := rfl
@[simp] theorem State.writeHung_draws (s : State) (k : MessageKind) (bs : List Byte) : (s.writeHung k bs).draws = s.draws + 1 := rfl

/-! `State.continueOperation` -/

@[simp] theorem State.continueOperation_ports (s : State) : (s.continueOperation).ports = s.ports := rfl
@[simp] theorem State.continueOperation_responses (s : State) : (s.continueOperation).responses = s.responses := rfl
@[simp] theorem State.continueOperation_session (s : State) : (s.continueOperation).session = s.session := rfl
@[simp] theorem State.continueOperation_display (s : State) : (s.continueOperation).display = s.display := rfl
@[simp] theorem State.continueOperation_transport (s : State) : (s.continueOperation).transport = s.transport := rfl
@[simp] theorem State.continueOperation_wire (s : State) : (s.continueOperation).wire = s.wire := rfl
@[simp] theorem State.continueOperation_hung (s : State) : (s.continueOperation).hung = s.hung := rfl
@[simp] theorem State.continueOperation_raster (s : State) : (s.continueOperation).raster = s.raster := rfl
@[simp] theorem State.continueOperation_result (s : State) : (s.continueOperation).result = none := rfl
@[simp] theorem State.continueOperation_current (s : State) : (s.continueOperation).current = s.current := rfl
@[simp] theorem State.continueOperation_program (s : State) : (s.continueOperation).program = s.program := rfl
@[simp] theorem State.continueOperation_bitmaps (s : State) : (s.continueOperation).bitmaps = s.bitmaps := rfl
@[simp] theorem State.continueOperation_fates (s : State) : (s.continueOperation).fates = s.fates := rfl
@[simp] theorem State.continueOperation_openFails (s : State) : (s.continueOperation).openFails = s.openFails := rfl
@[simp] theorem State.continueOperation_openPath (s : State) : (s.continueOperation).openPath = s.openPath := rfl
@[simp] theorem State.continueOperation_turns (s : State) : (s.continueOperation).turns = s.turns := rfl
@[simp] theorem State.continueOperation_draws (s : State) : (s.continueOperation).draws = s.draws := rfl

/-! `State.succeed` -/

@[simp] theorem State.succeed_ports (s : State) : (s.succeed).ports = s.ports := rfl
@[simp] theorem State.succeed_responses (s : State) : (s.succeed).responses = s.responses := rfl
@[simp] theorem State.succeed_session (s : State) : (s.succeed).session = s.session := rfl
@[simp] theorem State.succeed_display (s : State) : (s.succeed).display = s.display := rfl
@[simp] theorem State.succeed_transport (s : State) : (s.succeed).transport = s.transport := rfl
@[simp] theorem State.succeed_wire (s : State) : (s.succeed).wire = s.wire := rfl
@[simp] theorem State.succeed_hung (s : State) : (s.succeed).hung = s.hung := rfl
@[simp] theorem State.succeed_raster (s : State) : (s.succeed).raster = s.raster := rfl
@[simp] theorem State.succeed_result (s : State) : (s.succeed).result = some .success := rfl
@[simp] theorem State.succeed_current (s : State) : (s.succeed).current = s.current := rfl
@[simp] theorem State.succeed_program (s : State) : (s.succeed).program = s.program := rfl
@[simp] theorem State.succeed_bitmaps (s : State) : (s.succeed).bitmaps = s.bitmaps := rfl
@[simp] theorem State.succeed_fates (s : State) : (s.succeed).fates = s.fates := rfl
@[simp] theorem State.succeed_openFails (s : State) : (s.succeed).openFails = s.openFails := rfl
@[simp] theorem State.succeed_openPath (s : State) : (s.succeed).openPath = s.openPath := rfl
@[simp] theorem State.succeed_turns (s : State) : (s.succeed).turns = s.turns := rfl
@[simp] theorem State.succeed_draws (s : State) : (s.succeed).draws = s.draws := rfl

/-! `State.openFailed` -/

@[simp] theorem State.openFailed_ports (s : State) : (s.openFailed).ports = s.ports := rfl
@[simp] theorem State.openFailed_responses (s : State) : (s.openFailed).responses = s.responses := rfl
@[simp] theorem State.openFailed_session (s : State) : (s.openFailed).session = .failed := rfl
@[simp] theorem State.openFailed_display (s : State) : (s.openFailed).display = s.display := rfl
@[simp] theorem State.openFailed_transport (s : State) : (s.openFailed).transport = s.transport := rfl
@[simp] theorem State.openFailed_wire (s : State) : (s.openFailed).wire = s.wire := rfl
@[simp] theorem State.openFailed_hung (s : State) : (s.openFailed).hung = s.hung := rfl
@[simp] theorem State.openFailed_raster (s : State) : (s.openFailed).raster = s.raster := rfl
@[simp] theorem State.openFailed_result (s : State) : (s.openFailed).result = some (.error .transportError) := rfl
@[simp] theorem State.openFailed_current (s : State) : (s.openFailed).current = [] := rfl
@[simp] theorem State.openFailed_program (s : State) : (s.openFailed).program = s.program := rfl
@[simp] theorem State.openFailed_bitmaps (s : State) : (s.openFailed).bitmaps = s.bitmaps := rfl
@[simp] theorem State.openFailed_fates (s : State) : (s.openFailed).fates = s.fates := rfl
@[simp] theorem State.openFailed_openFails (s : State) : (s.openFailed).openFails = s.openFails := rfl
@[simp] theorem State.openFailed_openPath (s : State) : (s.openFailed).openPath = s.openPath := rfl
@[simp] theorem State.openFailed_turns (s : State) : (s.openFailed).turns = s.turns := rfl
@[simp] theorem State.openFailed_draws (s : State) : (s.openFailed).draws = s.draws := rfl

/-! `State.rasterDue` -/

@[simp] theorem State.rasterDue_ports (s : State) (rows : List (List Rgb)) : (s.rasterDue rows).ports = s.ports := rfl
@[simp] theorem State.rasterDue_responses (s : State) (rows : List (List Rgb)) : (s.rasterDue rows).responses = s.responses := rfl
@[simp] theorem State.rasterDue_session (s : State) (rows : List (List Rgb)) : (s.rasterDue rows).session = s.session := rfl
@[simp] theorem State.rasterDue_display (s : State) (rows : List (List Rgb)) : (s.rasterDue rows).display = s.display := rfl
@[simp] theorem State.rasterDue_transport (s : State) (rows : List (List Rgb)) : (s.rasterDue rows).transport = s.transport := rfl
@[simp] theorem State.rasterDue_wire (s : State) (rows : List (List Rgb)) : (s.rasterDue rows).wire = s.wire := rfl
@[simp] theorem State.rasterDue_hung (s : State) (rows : List (List Rgb)) : (s.rasterDue rows).hung = s.hung := rfl
@[simp] theorem State.rasterDue_raster (s : State) (rows : List (List Rgb)) : (s.rasterDue rows).raster = rows := rfl
@[simp] theorem State.rasterDue_result (s : State) (rows : List (List Rgb)) : (s.rasterDue rows).result = none := rfl
@[simp] theorem State.rasterDue_current (s : State) (rows : List (List Rgb)) : (s.rasterDue rows).current = s.current := rfl
@[simp] theorem State.rasterDue_program (s : State) (rows : List (List Rgb)) : (s.rasterDue rows).program = s.program := rfl
@[simp] theorem State.rasterDue_bitmaps (s : State) (rows : List (List Rgb)) : (s.rasterDue rows).bitmaps = s.bitmaps := rfl
@[simp] theorem State.rasterDue_fates (s : State) (rows : List (List Rgb)) : (s.rasterDue rows).fates = s.fates := rfl
@[simp] theorem State.rasterDue_openFails (s : State) (rows : List (List Rgb)) : (s.rasterDue rows).openFails = s.openFails := rfl
@[simp] theorem State.rasterDue_openPath (s : State) (rows : List (List Rgb)) : (s.rasterDue rows).openPath = s.openPath := rfl
@[simp] theorem State.rasterDue_turns (s : State) (rows : List (List Rgb)) : (s.rasterDue rows).turns = s.turns := rfl
@[simp] theorem State.rasterDue_draws (s : State) (rows : List (List Rgb)) : (s.rasterDue rows).draws = s.draws := rfl

/-! `State.orientationSet` -/

@[simp] theorem State.orientationSet_ports (s : State) (o : Orientation) (r : Bool) : (s.orientationSet o r).ports = s.ports := rfl
@[simp] theorem State.orientationSet_responses (s : State) (o : Orientation) (r : Bool) : (s.orientationSet o r).responses = s.responses := rfl
@[simp] theorem State.orientationSet_session (s : State) (o : Orientation) (r : Bool) : (s.orientationSet o r).session = if s.session = .uninitialized ∧ s.initWritten = true then .ready else s.session := rfl
@[simp] theorem State.orientationSet_display (s : State) (o : Orientation) (r : Bool) : (s.orientationSet o r).display = some (displayFor o r) := rfl
@[simp] theorem State.orientationSet_transport (s : State) (o : Orientation) (r : Bool) : (s.orientationSet o r).transport = s.transport := rfl
@[simp] theorem State.orientationSet_wire (s : State) (o : Orientation) (r : Bool) : (s.orientationSet o r).wire = s.wire := rfl
@[simp] theorem State.orientationSet_hung (s : State) (o : Orientation) (r : Bool) : (s.orientationSet o r).hung = s.hung := rfl
@[simp] theorem State.orientationSet_raster (s : State) (o : Orientation) (r : Bool) : (s.orientationSet o r).raster = s.raster := rfl
@[simp] theorem State.orientationSet_result (s : State) (o : Orientation) (r : Bool) : (s.orientationSet o r).result = some .success := rfl
@[simp] theorem State.orientationSet_current (s : State) (o : Orientation) (r : Bool) : (s.orientationSet o r).current = s.current := rfl
@[simp] theorem State.orientationSet_program (s : State) (o : Orientation) (r : Bool) : (s.orientationSet o r).program = s.program := rfl
@[simp] theorem State.orientationSet_bitmaps (s : State) (o : Orientation) (r : Bool) : (s.orientationSet o r).bitmaps = s.bitmaps := rfl
@[simp] theorem State.orientationSet_fates (s : State) (o : Orientation) (r : Bool) : (s.orientationSet o r).fates = s.fates := rfl
@[simp] theorem State.orientationSet_openFails (s : State) (o : Orientation) (r : Bool) : (s.orientationSet o r).openFails = s.openFails := rfl
@[simp] theorem State.orientationSet_openPath (s : State) (o : Orientation) (r : Bool) : (s.orientationSet o r).openPath = s.openPath := rfl
@[simp] theorem State.orientationSet_turns (s : State) (o : Orientation) (r : Bool) : (s.orientationSet o r).turns = s.turns := rfl
@[simp] theorem State.orientationSet_draws (s : State) (o : Orientation) (r : Bool) : (s.orientationSet o r).draws = s.draws := rfl

/-! `State.presentAll`: presenting requests touches the ports and the responses only. -/

theorem State.presentAll_responses (s : State) (qs : List Request) :
    (s.presentAll qs).responses = s.responses ++ qs.map fce := by
  induction qs generalizing s with
  | nil => simp [State.presentAll]
  | cons q qs ih => rw [State.presentAll, List.foldl_cons, ← State.presentAll, ih]; simp

theorem State.presentAll_ports (s : State) (qs : List Request) :
    (s.presentAll qs).ports = qs.foldl InPorts.drive s.ports := by
  induction qs generalizing s with
  | nil => rfl
  | cons q qs ih => rw [State.presentAll, List.foldl_cons, ← State.presentAll, ih]; rfl

/-- The whole effect of presenting requests. -/
theorem State.presentAll_eq (s : State) (qs : List Request) :
    s.presentAll qs = { s with ports := qs.foldl InPorts.drive s.ports, responses := s.responses ++ qs.map fce } := by
  induction qs generalizing s with
  | nil => simp [State.presentAll]
  | cons q qs ih => rw [State.presentAll, List.foldl_cons, ← State.presentAll, ih]; simp [State.present]

@[simp] theorem State.presentAll_session (s : State) (qs : List Request) : (s.presentAll qs).session = s.session := by
  rw [State.presentAll_eq]
@[simp] theorem State.presentAll_display (s : State) (qs : List Request) : (s.presentAll qs).display = s.display := by
  rw [State.presentAll_eq]
@[simp] theorem State.presentAll_transport (s : State) (qs : List Request) : (s.presentAll qs).transport = s.transport := by
  rw [State.presentAll_eq]
@[simp] theorem State.presentAll_wire (s : State) (qs : List Request) : (s.presentAll qs).wire = s.wire := by
  rw [State.presentAll_eq]
@[simp] theorem State.presentAll_hung (s : State) (qs : List Request) : (s.presentAll qs).hung = s.hung := by
  rw [State.presentAll_eq]
@[simp] theorem State.presentAll_raster (s : State) (qs : List Request) : (s.presentAll qs).raster = s.raster := by
  rw [State.presentAll_eq]
@[simp] theorem State.presentAll_result (s : State) (qs : List Request) : (s.presentAll qs).result = s.result := by
  rw [State.presentAll_eq]
@[simp] theorem State.presentAll_current (s : State) (qs : List Request) : (s.presentAll qs).current = s.current := by
  rw [State.presentAll_eq]
@[simp] theorem State.presentAll_program (s : State) (qs : List Request) : (s.presentAll qs).program = s.program := by
  rw [State.presentAll_eq]
@[simp] theorem State.presentAll_bitmaps (s : State) (qs : List Request) : (s.presentAll qs).bitmaps = s.bitmaps := by
  rw [State.presentAll_eq]
@[simp] theorem State.presentAll_fates (s : State) (qs : List Request) : (s.presentAll qs).fates = s.fates := by
  rw [State.presentAll_eq]
@[simp] theorem State.presentAll_openFails (s : State) (qs : List Request) : (s.presentAll qs).openFails = s.openFails := by
  rw [State.presentAll_eq]
@[simp] theorem State.presentAll_openPath (s : State) (qs : List Request) : (s.presentAll qs).openPath = s.openPath := by
  rw [State.presentAll_eq]
@[simp] theorem State.presentAll_turns (s : State) (qs : List Request) : (s.presentAll qs).turns = s.turns := by
  rw [State.presentAll_eq]
@[simp] theorem State.presentAll_draws (s : State) (qs : List Request) : (s.presentAll qs).draws = s.draws := by
  rw [State.presentAll_eq]

/-! `State.opened` and `State.rowDone`. -/

@[simp] theorem State.opened_ports (s : State) : s.opened.ports = s.ports := by unfold State.opened; split <;> rfl
@[simp] theorem State.opened_responses (s : State) : s.opened.responses = s.responses := by unfold State.opened; split <;> rfl
@[simp] theorem State.opened_session (s : State) : s.opened.session = s.session := by unfold State.opened; split <;> rfl
@[simp] theorem State.opened_display (s : State) : s.opened.display = s.display := by unfold State.opened; split <;> rfl
@[simp] theorem State.opened_transport (s : State) : s.opened.transport = some (s.transport.getD (TransportParams.host s.openPath)) := by
  unfold State.opened; split <;> simp_all
@[simp] theorem State.opened_wire (s : State) : s.opened.wire = s.wire := by unfold State.opened; split <;> rfl
@[simp] theorem State.opened_hung (s : State) : s.opened.hung = s.hung := by unfold State.opened; split <;> rfl
@[simp] theorem State.opened_raster (s : State) : s.opened.raster = s.raster := by unfold State.opened; split <;> rfl
@[simp] theorem State.opened_result (s : State) : s.opened.result = s.result := by unfold State.opened; split <;> rfl
@[simp] theorem State.opened_current (s : State) : s.opened.current = s.current := by unfold State.opened; split <;> rfl
@[simp] theorem State.opened_program (s : State) : s.opened.program = s.program := by unfold State.opened; split <;> rfl
@[simp] theorem State.opened_bitmaps (s : State) : s.opened.bitmaps = s.bitmaps := by unfold State.opened; split <;> rfl
@[simp] theorem State.opened_fates (s : State) : s.opened.fates = s.fates := by unfold State.opened; split <;> rfl
@[simp] theorem State.opened_openFails (s : State) : s.opened.openFails = s.openFails := by unfold State.opened; split <;> rfl
@[simp] theorem State.opened_openPath (s : State) : s.opened.openPath = s.openPath := by unfold State.opened; split <;> rfl
@[simp] theorem State.opened_turns (s : State) : s.opened.turns = s.turns := by unfold State.opened; split <;> rfl
@[simp] theorem State.opened_draws (s : State) : s.opened.draws = s.draws := by unfold State.opened; split <;> rfl
@[simp] theorem State.rowDone_ports (s : State) (rest : List (List Rgb)) : (s.rowDone rest).ports = s.ports := by
  cases rest <;> simp [State.rowDone]
@[simp] theorem State.rowDone_responses (s : State) (rest : List (List Rgb)) : (s.rowDone rest).responses = s.responses := by
  cases rest <;> simp [State.rowDone]
@[simp] theorem State.rowDone_session (s : State) (rest : List (List Rgb)) : (s.rowDone rest).session = s.session := by
  cases rest <;> simp [State.rowDone]
@[simp] theorem State.rowDone_display (s : State) (rest : List (List Rgb)) : (s.rowDone rest).display = s.display := by
  cases rest <;> simp [State.rowDone]
@[simp] theorem State.rowDone_transport (s : State) (rest : List (List Rgb)) : (s.rowDone rest).transport = s.transport := by
  cases rest <;> simp [State.rowDone]
@[simp] theorem State.rowDone_wire (s : State) (rest : List (List Rgb)) : (s.rowDone rest).wire = s.wire := by
  cases rest <;> simp [State.rowDone]
@[simp] theorem State.rowDone_hung (s : State) (rest : List (List Rgb)) : (s.rowDone rest).hung = s.hung := by
  cases rest <;> simp [State.rowDone]
@[simp] theorem State.rowDone_raster (s : State) (rest : List (List Rgb)) : (s.rowDone rest).raster = rest := by
  cases rest <;> simp [State.rowDone]
@[simp] theorem State.rowDone_result (s : State) (rest : List (List Rgb)) : (s.rowDone rest).result = if rest = [] then some .success else s.result := by
  cases rest <;> simp [State.rowDone]
@[simp] theorem State.rowDone_current (s : State) (rest : List (List Rgb)) : (s.rowDone rest).current = s.current := by
  cases rest <;> simp [State.rowDone]
@[simp] theorem State.rowDone_program (s : State) (rest : List (List Rgb)) : (s.rowDone rest).program = s.program := by
  cases rest <;> simp [State.rowDone]
@[simp] theorem State.rowDone_bitmaps (s : State) (rest : List (List Rgb)) : (s.rowDone rest).bitmaps = s.bitmaps := by
  cases rest <;> simp [State.rowDone]
@[simp] theorem State.rowDone_fates (s : State) (rest : List (List Rgb)) : (s.rowDone rest).fates = s.fates := by
  cases rest <;> simp [State.rowDone]
@[simp] theorem State.rowDone_openFails (s : State) (rest : List (List Rgb)) : (s.rowDone rest).openFails = s.openFails := by
  cases rest <;> simp [State.rowDone]
@[simp] theorem State.rowDone_openPath (s : State) (rest : List (List Rgb)) : (s.rowDone rest).openPath = s.openPath := by
  cases rest <;> simp [State.rowDone]
@[simp] theorem State.rowDone_turns (s : State) (rest : List (List Rgb)) : (s.rowDone rest).turns = s.turns := by
  cases rest <;> simp [State.rowDone]
@[simp] theorem State.rowDone_draws (s : State) (rest : List (List Rgb)) : (s.rowDone rest).draws = s.draws := by
  cases rest <;> simp [State.rowDone]

/-! What depends on the wire alone follows it. -/

theorem State.kinds_eq_of_wire {s t : State} (h : s.wire = t.wire) : s.kinds = t.kinds := by simp [State.kinds, h]

theorem State.phase_eq_of_wire {s t : State} (h : s.wire = t.wire) : s.phase = t.phase := by
  simp [State.phase, State.kinds_eq_of_wire h]

end Sys2Proof.Machine
end

