-- ==== Sys2Proof/Laws/Ops.lean ====
section
/-! SUPPORT. What writing a message can do: the inversion and completion lemmas of `State.send` and
`State.sendCommand`, which later proofs cite instead of unfolding them. -/

namespace Sys2Proof.Machine

theorem State.writeBlocked_eq_none {s : State} :
    s.writeBlocked = none ↔ s.session ≠ .failed ∧ s.hung = false := by
  unfold State.writeBlocked
  split
  · simp_all
  · split <;> simp_all

theorem State.writeBlocked_failed {s : State} (h : s.session = .failed) : s.writeBlocked = some .sessionFailed := by
  simp [State.writeBlocked, h]

theorem State.writeBlocked_hung {s : State} (h : s.session ≠ .failed) (h' : s.hung = true) :
    s.writeBlocked = some .operationInFlight := by
  simp [State.writeBlocked, h, h']

/-- Everything a host write can do when it answers a next state. -/
theorem State.send_next {s t : State} {k : MessageKind} {items : List Item} {done : State → State}
    (h : s.send k items done = .next t) :
    (s.session ≠ .failed ∧ s.hung = false ∧ s.transport ≠ none) ∧
    ((s.nextFate = .completes ∧
        t = done ((s.presentAll (messageRequests items)).written k (messageBytes Config.pixelWireOrder items))) ∨
      (s.nextFate = .fails ∧
        t = (s.presentAll (messageRequests items)).writeFailed k (messageBytes Config.pixelWireOrder items)) ∨
      (s.nextFate = .hangs ∧
        t = (s.presentAll (messageRequests items)).writeHung k (messageBytes Config.pixelWireOrder items))) := by
  unfold State.send at h
  split at h
  · cases h
  · rename_i hb
    have hb' := State.writeBlocked_eq_none.mp hb
    split at h
    · cases h
    · rename_i ht
      refine ⟨⟨hb'.1, hb'.2, by simp [ht]⟩, ?_⟩
      dsimp only at h
      split at h <;> cases h <;> simp_all

/-- A host write completes where nothing blocks it and the Transport takes it. -/
theorem State.send_completes {s : State} {k : MessageKind} {items : List Item} {done : State → State}
    (h1 : s.session ≠ .failed) (h2 : s.hung = false) (h3 : s.transport ≠ none) (h4 : s.nextFate = .completes) :
    s.send k items done =
      .next (done ((s.presentAll (messageRequests items)).written k (messageBytes Config.pixelWireOrder items))) := by
  unfold State.send
  rw [State.writeBlocked_eq_none.mpr ⟨h1, h2⟩, h4]
  cases ht : s.transport with
  | none => exact absurd ht h3
  | some p => rfl

/-- A host write that the Transport fails. -/
theorem State.send_fails {s : State} {k : MessageKind} {items : List Item} {done : State → State}
    (h1 : s.session ≠ .failed) (h2 : s.hung = false) (h3 : s.transport ≠ none) (h4 : s.nextFate = .fails) :
    s.send k items done =
      .next ((s.presentAll (messageRequests items)).writeFailed k (messageBytes Config.pixelWireOrder items)) := by
  unfold State.send
  rw [State.writeBlocked_eq_none.mpr ⟨h1, h2⟩, h4]
  cases ht : s.transport with
  | none => exact absurd ht h3
  | some p => rfl

/-- A host write that never completes. -/
theorem State.send_hangs {s : State} {k : MessageKind} {items : List Item} {done : State → State}
    (h1 : s.session ≠ .failed) (h2 : s.hung = false) (h3 : s.transport ≠ none) (h4 : s.nextFate = .hangs) :
    s.send k items done =
      .next ((s.presentAll (messageRequests items)).writeHung k (messageBytes Config.pixelWireOrder items)) := by
  unfold State.send
  rw [State.writeBlocked_eq_none.mpr ⟨h1, h2⟩, h4]
  cases ht : s.transport with
  | none => exact absurd ht h3
  | some p => rfl

/-- A blocked write is the fault that blocks it. -/
theorem State.send_blocked {s : State} {k : MessageKind} {items : List Item} {done : State → State} {f : Fault}
    (h : s.writeBlocked = some f) : s.send k items done = .fault f := by
  unfold State.send; rw [h]

theorem State.sendCommand_next {s t : State} {k : MessageKind} {items : List Item} {done : State → State}
    (h : s.sendCommand k items done = .next t) : s.raster = [] ∧ s.send k items done = .next t := by
  unfold State.sendCommand at h
  split at h
  · exact ⟨‹_›, h⟩
  · cases h

theorem State.sendCommand_eq {s : State} {k : MessageKind} {items : List Item} {done : State → State}
    (h : s.raster = []) : s.sendCommand k items done = s.send k items done := by
  unfold State.sendCommand; rw [if_pos h]

theorem State.sendCommand_inRaster {s : State} {k : MessageKind} {items : List Item} {done : State → State}
    (h : s.raster ≠ []) : s.sendCommand k items done = .fault .operationInFlight := by
  unfold State.sendCommand; rw [if_neg h]

theorem State.CanSend.sendCommand {s : State} (h : s.CanSend) (k : MessageKind) (items : List Item)
    (done : State → State) :
    s.sendCommand k items done =
      .next (done ((s.presentAll (messageRequests items)).written k (messageBytes Config.pixelWireOrder items))) := by
  obtain ⟨⟨h1, h2, h3, h4⟩, h5⟩ := h
  rw [State.sendCommand_eq h3, State.send_completes h1 h2 h4 h5]

end Sys2Proof.Machine
end

