-- ==== Sys2Proof/Laws/Order.lean ====
section
/-! SUPPORT. The order automaton of the wire: how a phase moves when a message is added, and what each phase says of the
messages before it. -/

namespace Sys2Proof.Machine

theorem Phase.run_append {p q : Phase} {ks : List MessageKind} (h : p.run ks = .next q) (k : MessageKind) :
    p.run (ks ++ [k]) = q.next k := by
  induction ks generalizing p with
  | nil =>
    cases h
    rw [List.nil_append, Phase.run]
    cases Phase.next q k <;> rfl
  | cons a ks ih =>
    rw [List.cons_append, Phase.run]
    rw [Phase.run] at h
    cases hp : p.next a with
    | next p' => simp only [hp] at h ⊢; exact ih h
    | fault f => simp [hp] at h
    | refused r => simp [hp] at h

/-- A list that the automaton takes, it takes up to its last message. -/
theorem Phase.run_append_next {p q : Phase} {ks : List MessageKind} {k : MessageKind}
    (h : p.run (ks ++ [k]) = .next q) : ∃ r, p.run ks = .next r ∧ r.next k = .next q := by
  induction ks generalizing p with
  | nil =>
    rw [List.nil_append, Phase.run] at h
    cases hp : p.next k with
    | next p' => simp only [hp] at h; cases h; exact ⟨p, rfl, hp⟩
    | fault f => simp [hp] at h
    | refused r => simp [hp] at h
  | cons a ks ih =>
    rw [List.cons_append, Phase.run] at h
    cases hp : p.next a with
    | next p' =>
      simp only [hp] at h
      obtain ⟨r, hr, hk⟩ := ih h
      exact ⟨r, by rw [Phase.run]; simp only [hp]; exact hr, hk⟩
    | fault f => simp [hp] at h
    | refused r => simp [hp] at h

/-- Adding a message moves the phase of the wire. -/
theorem State.phase_add {s t : State} {p : Phase} {w : Written} (h : s.phase = .next p)
    (hw : t.wire = s.wire ++ [w]) : t.phase = p.next w.kind := by
  unfold State.phase State.kinds at *
  rw [hw, List.map_append]
  exact Phase.run_append h w.kind

theorem State.kinds_add {s t : State} {w : Written} (hw : t.wire = s.wire ++ [w]) : t.kinds = s.kinds ++ [w.kind] := by
  simp [State.kinds, hw]

/-- What a phase says of the messages before it. -/
theorem Phase.run_start {ks : List MessageKind} {p : Phase} (h : Phase.start.run ks = .next p) :
    (p = .start ∧ ks = []) ∨ (p = .resetSent ∧ ks = [.reset]) ∨ (p = .bootGeometry ∧ ks = [.reset, .geometryReset]) ∨
      (initKinds <+: ks ∧ (p = .idle ∨ p = .geometrySent ∨ ∃ more, p = .rows more)) := by
  induction ks using List.reverseRecOn generalizing p with
  | nil => cases h; exact .inl ⟨rfl, rfl⟩
  | append_singleton ks k ih =>
    obtain ⟨r, hr, hk⟩ := Phase.run_append_next h
    obtain ⟨rfl, rfl⟩ | ⟨rfl, rfl⟩ | ⟨rfl, rfl⟩ | ⟨hpre, hr'⟩ := ih hr
    · cases k <;> simp [Phase.next] at hk
      subst hk; simp
    · cases k <;> simp [Phase.next] at hk
      subst hk; simp
    · simp only [Phase.next] at hk
      split at hk
      · rename_i hk'
        cases hk
        exact .inr (.inr (.inr ⟨by rw [hk']; exact List.prefix_rfl, .inl rfl⟩))
      · cases hk
    · refine .inr (.inr (.inr ⟨hpre.trans (List.prefix_append _ _), ?_⟩))
      obtain rfl | rfl | ⟨more, rfl⟩ := hr'
      · cases k with
        | bitmapHeader n =>
          simp only [Phase.next, Phase.nextIdle, Host.Outcome.next.injEq] at hk
          subst hk
          cases n <;> simp [Phase.afterRow]
        | _ => simp [Phase.next, Phase.nextIdle] at hk <;> subst hk <;> simp
      · cases k <;> simp [Phase.next] at hk
        subst hk; simp
      · simp only [Phase.next] at hk
        split at hk
        · cases more <;> simp [Phase.afterRow] at hk <;> subst hk <;> simp
        · cases hk

end Sys2Proof.Machine
end

