-- ==== Sys2Proof/Laws/PerInstr.lean ====
section
/-! SUPPORT. The per-instruction family `TableRow`: an instruction's encoding lies in its own row of
spec/opcode_table.json, one lemma for each constructor. -/

namespace Sys2Proof.Laws.TableRow

/-- A request word of the row with this operation field (mask 0x3 at bits 73 and 72). -/
def InRequestRow (op : BitVec 2) (i : Instr) : Prop :=
  ∃ q : RequestWord, encode i = .request q ∧ RequestWord.op q = op

/-- A frame of a row that fixes the opcode byte only (mask 0xFF). -/
def InOpcodeRow (opcode : Byte) (i : Instr) : Prop :=
  ∃ (f : FrameWord) (after : Byte), encode i = .command f after ∧ FrameWord.opcode f = opcode

/-- The frame of a row that fixes all 48 bits, with nothing after it. -/
def InFixedRow (f : FrameWord) (i : Instr) : Prop := encode i = .command f 0#8

/-- Each instruction is encoded in the row that has its mnemonic. -/
def Statement (i : Instr) : Prop :=
  match i with
  | .packCmd _ _ _ _ _ => InRequestRow 0#2 i
  | .packU16 _ => InRequestRow 1#2 i
  | .packColor _ _ _ => InRequestRow 2#2 i
  | .reservedOp11 => InRequestRow 3#2 i
  | .reset => InFixedRow 0x0000000000FF#48 i
  | .clear => InFixedRow 0x000000000066#48 i
  | .toBlack => InFixedRow 0x000000000067#48 i
  | .screenOff => InFixedRow 0x00000000006C#48 i
  | .screenOn => InFixedRow 0x00000000006D#48 i
  | .setBrightness _ _ _ _ => InOpcodeRow 0x6E#8 i
  | .setOrientation _ _ _ _ _ => InOpcodeRow 0x79#8 i
  | .geometryReset => InFixedRow 0x00000000007A#48 i
  | .displayBitmap _ _ _ _ => InOpcodeRow 0xC5#8 i

/-- The operation field of a word put together from it and the 72 bits below. -/
theorem op_append (op : BitVec 2) (low : BitVec 72) : RequestWord.op (op ++ low) = op := by
  simp (disch := omega) only [RequestWord.op, BitVec.extractLsb'_append_eq_of_le, BitVec.extractLsb'_eq_self,
    Nat.reduceSub]

/-- The opcode of a frame put together from it. -/
theorem opcode_frameWord (opcode : Byte) (p1 p2 p3 p4 : BitVec 10) :
    FrameWord.opcode (frameWord opcode p1 p2 p3 p4) = opcode := by
  simp (disch := omega) only [FrameWord.opcode, frameWord, BitVec.extractLsb'_append_eq_of_add_le,
    BitVec.extractLsb'_eq_self]

theorem packCmd (opcode : Byte) (p1 p2 p3 p4 : BitVec 16) : Statement (.packCmd opcode p1 p2 p3 p4) := by
  refine ⟨_, rfl, ?_⟩
  simp (disch := omega) only [RequestWord.op, BitVec.extractLsb'_append_eq_of_le, BitVec.extractLsb'_eq_self,
    Nat.reduceSub]

theorem packU16 (n : BitVec 16) : Statement (.packU16 n) := by
  refine ⟨_, rfl, ?_⟩
  simp (disch := omega) only [RequestWord.op, BitVec.extractLsb'_append_eq_of_le, BitVec.extractLsb'_eq_self,
    Nat.reduceSub]

theorem packColor (r g b : Byte) : Statement (.packColor r g b) := by
  refine ⟨_, rfl, ?_⟩
  simp (disch := omega) only [RequestWord.op, BitVec.extractLsb'_append_eq_of_le, BitVec.extractLsb'_eq_self,
    Nat.reduceSub]

theorem reservedOp11 : Statement .reservedOp11 := ⟨_, rfl, op_append 3#2 0#72⟩

theorem reset : Statement .reset := rfl

theorem clear : Statement .clear := rfl

theorem toBlack : Statement .toBlack := rfl

theorem screenOff : Statement .screenOff := rfl

theorem screenOn : Statement .screenOn := rfl

theorem setBrightness (p1 p2 p3 p4 : BitVec 10) : Statement (.setBrightness p1 p2 p3 p4) :=
  ⟨_, _, rfl, opcode_frameWord 0x6E#8 p1 p2 p3 p4⟩

theorem setOrientation (p1 p2 p3 p4 : BitVec 10) (after : Byte) : Statement (.setOrientation p1 p2 p3 p4 after) :=
  ⟨_, _, rfl, opcode_frameWord 0x79#8 p1 p2 p3 p4⟩

theorem geometryReset : Statement .geometryReset := rfl

theorem displayBitmap (x y x2 y2 : BitVec 10) : Statement (.displayBitmap x y x2 y2) :=
  ⟨_, _, rfl, opcode_frameWord 0xC5#8 x y x2 y2⟩

end Sys2Proof.Laws.TableRow
end

