-- ==== Sys2Proof/Laws/Step.lean ====
section
/-! SUPPORT. Inversion: everything `exec` and `step` can do when they answer a next state. -/

namespace Sys2Proof.Machine

/-- What each kind of message does once its write has completed. -/
inductive Finishes : MessageKind → (State → State) → Prop where
  | reset : Finishes .reset State.continueOperation
  | clear : Finishes .clear State.succeed
  | toBlack : Finishes .toBlack State.succeed
  | screenOff : Finishes .screenOff State.succeed
  | screenOn : Finishes .screenOn State.succeed
  | geometryReset : Finishes .geometryReset State.continueOperation
  | setOrientation (o : Orientation) (reverse : Bool) :
    Finishes (.setOrientation o reverse) (State.orientationSet o reverse)
  | header (rows : List (List Rgb)) (h : rows ≠ []) : Finishes (.bitmapHeader rows.length) (State.rasterDue rows)

/-- `u` is `s` made ready to write: the Transport opened, or the decoded image taken. -/
def Prepared (s u : State) : Prop :=
  u = { s with transport := u.transport, bitmaps := u.bitmaps } ∧
    (u.transport = s.transport ∨ u.transport = some (s.transport.getD (TransportParams.host s.openPath)))

/-- Everything an instruction can do when it answers a next state: one request; a DecodeError; a Transport that does
not open; or one message. -/
theorem exec_next {i : Instr} {s t : State} (h : exec i s = .next t) :
    (∃ q, t = s.present q) ∨
    (∃ call rest, s.bitmaps = call :: rest ∧ call.decoded = .failed ∧
      t = { s with bitmaps := rest, result := some (.error .decodeError) }) ∨
    (s.session ≠ .failed ∧ s.hung = false ∧ s.transport = none ∧ t = s.openFailed) ∨
    (∃ k u items done, s.messageOf i = some k ∧ s.raster = [] ∧ Prepared s u ∧ Finishes k done ∧
      u.send k items done = .next t) := by
  have same : Prepared s s := ⟨rfl, .inl rfl⟩
  cases i with
  | packCmd opcode p1 p2 p3 p4 => cases h; exact .inl ⟨_, rfl⟩
  | packU16 n => cases h; exact .inl ⟨_, rfl⟩
  | packColor r g b => cases h; exact .inl ⟨_, rfl⟩
  | reservedOp11 => cases h
  | setBrightness p1 p2 p3 p4 => cases h
  | reset =>
    have h' : execReset s = .next t := h
    unfold execReset at h'
    split at h'
    · cases h'
    · rename_i hb
      have hb' := State.writeBlocked_eq_none.mp hb
      split at h'
      · rename_i ho
        cases h'
        exact .inr (.inr (.inl ⟨hb'.1, hb'.2, ho.1, rfl⟩))
      · obtain ⟨hr, hs⟩ := State.sendCommand_next h'
        refine .inr (.inr (.inr ⟨_, s.opened, _, _, rfl, by simpa using hr, ⟨?_, .inr (by simp)⟩, .reset, hs⟩))
        unfold State.opened
        split <;> rfl
  | clear =>
    obtain ⟨hr, hs⟩ := State.sendCommand_next (s := s) h
    exact .inr (.inr (.inr ⟨_, s, _, _, rfl, hr, same, .clear, hs⟩))
  | toBlack =>
    obtain ⟨hr, hs⟩ := State.sendCommand_next (s := s) h
    exact .inr (.inr (.inr ⟨_, s, _, _, rfl, hr, same, .toBlack, hs⟩))
  | screenOff =>
    obtain ⟨hr, hs⟩ := State.sendCommand_next (s := s) h
    exact .inr (.inr (.inr ⟨_, s, _, _, rfl, hr, same, .screenOff, hs⟩))
  | screenOn =>
    obtain ⟨hr, hs⟩ := State.sendCommand_next (s := s) h
    exact .inr (.inr (.inr ⟨_, s, _, _, rfl, hr, same, .screenOn, hs⟩))
  | geometryReset =>
    obtain ⟨hr, hs⟩ := State.sendCommand_next (s := s) h
    exact .inr (.inr (.inr ⟨_, s, _, _, rfl, hr, same, .geometryReset, hs⟩))
  | setOrientation p1 p2 p3 p4 after =>
    have h' : execSetOrientation p1 p2 p3 p4 after s = .next t := h
    unfold execSetOrientation at h'
    split at h'
    · cases h'
    · rename_i o reverse ho
      obtain ⟨hr, hs⟩ := State.sendCommand_next h'
      exact .inr (.inr (.inr ⟨_, s, _, _, by simp [State.messageOf, ho], hr, same, .setOrientation o reverse, hs⟩))
  | displayBitmap x y x2 y2 =>
    have h' : execDisplayBitmap x y x2 y2 s = .next t := h
    unfold execDisplayBitmap at h'
    split at h'
    · cases h'
    · rename_i call rest hi
      split at h'
      · rename_i hd
        split at h'
        · cases h'
        · cases h'; exact .inr (.inl ⟨call, rest, hi, hd, rfl⟩)
      · rename_i img hd
        split at h'
        · cases h'
        · rename_i hz
          split at h'
          · obtain ⟨hr, hs⟩ := State.sendCommand_next h'
            exact .inr (.inr (.inr ⟨_, { s with bitmaps := rest }, _, _, by simp [State.messageOf, hi, hd, Image.height],
              hr, ⟨rfl, .inl rfl⟩, .header img.rows (fun hrows => hz (.inr hrows)), hs⟩))
          · cases h'

/-- `u` is `s` after a fetch: only what is still to be issued, and whose turn it is, has changed. -/
def Fetched (s u : State) : Prop :=
  u = { s with turns := u.turns, current := u.current, program := u.program }

theorem State.startOperation_fetched (s : State) : Fetched s s.startOperation.2 := by
  unfold State.startOperation
  split <;> rfl

theorem State.interruptingWord_fetched (s : State) : Fetched s s.interruptingWord.2 := by
  unfold State.interruptingWord
  split <;> rfl

/-- What an action of a fetch that ends in `u` says of the state `s` it began in. -/
def Action.Fits (s u : State) : Action → Prop
  | .wait => True
  | .row px rest => s.raster = px :: rest ∧ s.hung = false
  | .word w => s.current = w :: u.current ∨ (s.current = [] ∧ s.midOperation = false)
  | .interrupt _ => s.busy = true

theorem State.startOperation_fits {s : State} (h1 : s.current = []) (h2 : s.midOperation = false) :
    Action.Fits s s.startOperation.2 s.startOperation.1 := by
  unfold State.startOperation
  split
  · trivial
  · trivial
  · exact .inr ⟨h1, h2⟩

theorem State.interruptingWord_fits {s u : State} (h : u.busy = true) :
    Action.Fits u s.interruptingWord.2 s.interruptingWord.1 := by
  unfold State.interruptingWord
  split
  · trivial
  · trivial
  · exact h
  · exact h

theorem State.ownerAction_spec (s : State) :
    Fetched s s.ownerAction.2 ∧ Action.Fits s s.ownerAction.2 s.ownerAction.1 := by
  unfold State.ownerAction
  split
  · exact ⟨rfl, trivial⟩
  · rename_i hh
    split
    · rename_i row rest hr
      exact ⟨rfl, hr, by simpa using hh⟩
    · split
      · rename_i w ws hc
        exact ⟨rfl, .inl hc⟩
      · rename_i hc
        split
        · rename_i hm
          exact ⟨State.interruptingWord_fetched s, State.interruptingWord_fits (by simp [State.busy, hm])⟩
        · rename_i hm
          exact ⟨State.startOperation_fetched s, State.startOperation_fits hc (by simpa using hm)⟩

/-- What a fetch can do. -/
theorem State.fetch_spec (s : State) : Fetched s s.fetch.2 ∧ Action.Fits s s.fetch.2 s.fetch.1 := by
  have owner := State.ownerAction_spec { s with turns := s.turns.tail }
  have fits : ∀ (u : State) (a : Action), Action.Fits { s with turns := s.turns.tail } u a → Action.Fits s u a := by
    intro u a h
    cases a <;> exact h
  unfold State.fetch
  dsimp only
  split
  · split
    · rename_i hb
      exact ⟨(State.interruptingWord_fetched { s with turns := s.turns.tail }).trans rfl,
        State.interruptingWord_fits hb⟩
    · exact ⟨owner.1.trans rfl, fits _ _ owner.2⟩
  · exact ⟨owner.1.trans rfl, fits _ _ owner.2⟩

/-- An instruction that no host operation has writes no message, so the wire lets it stand. -/
theorem State.admits_of_not_ofHostOperation {s : State} {i : Instr} (h : ofHostOperation i = false) :
    s.messageOf i = none ∧ s.admits i = .next () := by
  cases i <;> first | exact ⟨rfl, rfl⟩ | cases h

/-- An instruction of no host operation presents one request where it answers a next state. -/
theorem exec_of_not_ofHostOperation {s t : State} {i : Instr} (ho : ofHostOperation i = false)
    (h : exec i s = .next t) : ∃ q, t = s.present q := by
  cases i <;> first | cases ho; done | (cases h; done) | (cases h; exact ⟨_, rfl⟩)

/-- Everything the word of another operation can do when it answers a next state. -/
theorem runInterrupting_next {w : Word} {s t : State} (h : runInterrupting w s = .next t) :
    ∃ i, decode w = .ok i ∧ ofHostOperation i = false ∧ exec i s = .next t := by
  unfold runInterrupting at h
  split at h
  · cases h
  · rename_i i hi
    split at h
    · cases h
    · rename_i ho; exact ⟨i, hi, by simpa using ho, h⟩

/-- Everything a step can do when it answers a next state: nothing; the next row of the bitmap in progress; or one
instruction that the wire lets stand, which is of no host operation, or the next word of the operation in progress, or
the first of an operation where the stream stands inside none. -/
theorem step_next {s t : State} (h : step s = .next t) :
    ∃ u, Fetched s u ∧
      (t = u ∨
        (∃ px rest, s.raster = px :: rest ∧ s.hung = false ∧ u.writeRow px rest = .next t) ∨
        (∃ w i, decode w = .ok i ∧ u.admits i = .next () ∧ exec i u = .next t ∧
          (ofHostOperation i = false ∨ s.current = w :: u.current ∨ (s.current = [] ∧ s.midOperation = false)))) := by
  obtain ⟨hf, hr⟩ := State.fetch_spec s
  unfold step at h
  refine ⟨s.fetch.2, hf, ?_⟩
  revert h hf hr
  generalize s.fetch = a
  intro h hf hr
  obtain ⟨a, u⟩ := a
  cases a with
  | wait => cases h; exact .inl rfl
  | row px rest => exact .inr (.inl ⟨px, rest, hr.1, hr.2, h⟩)
  | word w =>
    have h' : runWord w u = .next t := h
    unfold runWord at h'
    split at h'
    · cases h'
    · rename_i i hi
      split at h'
      · rename_i ha; exact .inr (.inr ⟨w, i, hi, ha, h', .inr hr⟩)
      · cases h'
      · cases h'
  | interrupt w =>
    obtain ⟨i, hi, ho, he⟩ := runInterrupting_next h
    exact .inr (.inr ⟨w, i, hi, (State.admits_of_not_ofHostOperation ho).2, he, .inl ho⟩)

/-- An instruction that the wire lets stand, where a write can start, moves the phase. -/
theorem State.admits_phase {s : State} {i : Instr} {k : MessageKind} (h : s.admits i = .next ())
    (hk : s.messageOf i = some k) (hb : s.writeBlocked = none) :
    ∃ p q, s.phase = .next p ∧ p.next k = .next q := by
  unfold State.admits at h
  rw [hk, hb] at h
  dsimp only at h
  unfold State.accepts at h
  split at h
  · cases h
  · cases h
  · rename_i p hp
    split at h
    · rename_i q hq; exact ⟨p, q, hp, hq⟩
    · cases h
    · cases h

end Sys2Proof.Machine
end

