-- ==== Sys2Proof/Laws/Run.lean ====
section
/-! SUPPORT. Going forward: when a step is an instruction, and how runs are put together; and the fields of what a
fetch, a preparation and a finished message leave. -/

namespace Sys2Proof.Machine

/-- On the owner's turn the fetch is the owner's. -/
theorem State.fetch_owner {s : State} (h : s.turns.head? ≠ some .caller) :
    s.fetch = ({ s with turns := s.turns.tail } : State).ownerAction := by
  unfold State.fetch
  dsimp only
  split
  · rename_i h'; rw [h'] at h; exact absurd rfl h
  · rfl

/-- Where a write can start, the wire lets a message stand that its phase takes. -/
theorem State.admits_of_phase {s : State} {i : Instr} {k : MessageKind} {p q : Phase} (hk : s.messageOf i = some k)
    (h1 : s.session ≠ .failed) (h2 : s.hung = false) (hp : s.phase = .next p) (hq : p.next k = .next q) :
    s.admits i = .next () := by
  unfold State.admits
  rw [hk, State.writeBlocked_eq_none.mpr ⟨h1, h2⟩]
  simp only [State.accepts, hp, hq]

/-- Where a write can start, a message that the phase does not take stops as the phase says. -/
theorem State.admits_refused {s : State} {i : Instr} {k : MessageKind} {p : Phase} {r : Refusal}
    (hk : s.messageOf i = some k) (h1 : s.session ≠ .failed) (h2 : s.hung = false) (hp : s.phase = .next p)
    (hq : p.next k = .refused r) : s.admits i = .refused r := by
  unfold State.admits
  rw [hk, State.writeBlocked_eq_none.mpr ⟨h1, h2⟩]
  simp only [State.accepts, hp, hq]

theorem State.admits_fault {s : State} {i : Instr} {k : MessageKind} {p : Phase} {f : Fault}
    (hk : s.messageOf i = some k) (h1 : s.session ≠ .failed) (h2 : s.hung = false) (hp : s.phase = .next p)
    (hq : p.next k = .fault f) : s.admits i = .fault f := by
  unfold State.admits
  rw [hk, State.writeBlocked_eq_none.mpr ⟨h1, h2⟩]
  simp only [State.accepts, hp, hq]

/-- Running a decoded word that the wire lets stand is executing its instruction. -/
theorem runWord_of_admits {w : Word} {i : Instr} {s : State} (hd : decode w = .ok i) (ha : s.admits i = .next ()) :
    runWord w s = exec i s := by
  unfold runWord
  rw [hd]
  dsimp only
  rw [ha]

theorem runWord_of_refused {w : Word} {i : Instr} {s : State} {r : Refusal} (hd : decode w = .ok i)
    (ha : s.admits i = .refused r) : runWord w s = .refused r := by
  unfold runWord
  rw [hd]
  dsimp only
  rw [ha]

theorem runWord_of_fault {w : Word} {i : Instr} {s : State} {f : Fault} (hd : decode w = .ok i)
    (ha : s.admits i = .fault f) : runWord w s = .fault f := by
  unfold runWord
  rw [hd]
  dsimp only
  rw [ha]

/-- A SetOrientation instruction of an operation, wherever its byte stands, writes the message of its orientation. -/
theorem exec_setOrientation_operand {p1 p2 p3 p4 : BitVec 10} {after : Byte} {o : Orientation} {reverse : Bool}
    (h : orientationOperand p1 p2 p3 p4 after = some (o, reverse)) (s : State) :
    exec (.setOrientation p1 p2 p3 p4 after) s =
      s.sendCommand (.setOrientation o reverse) (setOrientationItems Config.orientParamSlot o reverse)
        (State.orientationSet o reverse) := by
  have e : exec (.setOrientation p1 p2 p3 p4 after) s = execSetOrientation p1 p2 p3 p4 after s := rfl
  rw [e]
  unfold execSetOrientation
  rw [h]

/-- What finishing a message leaves alone. -/
theorem Finishes.fields {k : MessageKind} {done : State → State} (h : Finishes k done) (v : State) :
    (done v).wire = v.wire ∧ (done v).hung = v.hung ∧ (done v).transport = v.transport ∧ (done v).fates = v.fates ∧
    (done v).bitmaps = v.bitmaps ∧ (done v).responses = v.responses ∧ (done v).ports = v.ports ∧
    (done v).program = v.program ∧ (done v).current = v.current ∧ (done v).turns = v.turns ∧
    (done v).openFails = v.openFails ∧ (done v).openPath = v.openPath ∧ (done v).draws = v.draws := by
  cases h <;> simp

/-- What preparing to write leaves alone. -/
theorem Prepared.fields {s u : State} (h : Prepared s u) :
    u.wire = s.wire ∧ u.session = s.session ∧ u.display = s.display ∧ u.hung = s.hung ∧ u.raster = s.raster ∧
    u.fates = s.fates ∧ u.responses = s.responses ∧ u.ports = s.ports ∧ u.current = s.current ∧
    u.program = s.program ∧ u.draws = s.draws := by
  rw [h.1]; simp

/-- What a fetch leaves alone. -/
theorem Fetched.fields {s u : State} (h : Fetched s u) :
    u.wire = s.wire ∧ u.session = s.session ∧ u.display = s.display ∧ u.hung = s.hung ∧ u.raster = s.raster ∧
    u.fates = s.fates ∧ u.responses = s.responses ∧ u.ports = s.ports ∧ u.transport = s.transport ∧
    u.bitmaps = s.bitmaps ∧ u.draws = s.draws ∧ u.result = s.result := by
  rw [h]; simp

/-- A run goes on from its first step. -/
theorem run_step (M : Host.Core) {s t : M.State} (k : Nat) (h : M.step s = .next t) : M.run (k + 1) s = M.run k t := by
  simp only [Host.Core.run, h]

/-- A run goes on from where a shorter run arrived. -/
theorem run_add (M : Host.Core) {s t : M.State} (k m : Nat) (h : M.run k s = .next t) : M.run (k + m) s = M.run m t := by
  induction k generalizing s with
  | zero => simp [Host.Core.run] at h; subst h; simp
  | succ n ih =>
    rw [Nat.succ_add]
    simp only [Host.Core.run] at h ⊢
    cases hs : M.step s with
    | next s' => rw [hs] at h; exact ih h
    | fault f => rw [hs] at h; cases h
    | refused r => rw [hs] at h; cases h

end Sys2Proof.Machine
end

