-- ==== Sys2Proof/Tests/Slice0.lean ====
section
/-! SUPPORT. Tests: ill-formed terms, words written out from the spec's encodings, the spec's own vectors
(95_test_vectors.md), and a witness for the hypotheses of every statement. -/

namespace Sys2Proof.Machine

/-! ### Ill-formed terms -/

/-- No orientation byte of 43_device_commands.md R127 stands in p1. -/
theorem test_illFormed_orientationByte : (Instr.setOrientation 0x68 0 0 0 0).wellFormed = false := by decide

/-- p1 is wider than the orientation byte. -/
theorem test_illFormed_orientationWide : (Instr.setOrientation 0x164 0 0 0 0).wellFormed = false := by decide

/-- No orientation byte stands after the frame. -/
theorem test_illFormed_orientationAfter : (Instr.setOrientation 0 0 0 0 0x63).wellFormed = false := by decide

/-- There is an orientation byte in both places. -/
theorem test_illFormed_orientationTwice : (Instr.setOrientation 0x64 0 0 0 0x64).wellFormed = false := by decide

theorem test_illFormed_p2 : (Instr.setOrientation 0x64 1 0 0 0).wellFormed = false := by decide

theorem test_illFormed_p3 : (Instr.setOrientation 0x64 0 1 0 0).wellFormed = false := by decide

theorem test_illFormed_p4 : (Instr.setOrientation 0 0 0 1 0x64).wellFormed = false := by decide

/-! ### Words written out from the spec's encodings -/

/-- 95_test_vectors.md T1 and T9: op 00, opcode in bits 71 to 64, p1 in 63 to 48, p2 in 47 to 32, p3 in 31 to 16, p4 in
15 to 0 (30_encoding.md R61). -/
theorem test_decode_packCmd :
    decodeTableWord 74 0x0C5000A0014000D0017 = some (.packCmd 0xC5 10 20 13 23) ∧
    decodeTableWord 74 0x0AB0123023403450056 = some (.packCmd 0xAB 0x123 0x234 0x345 0x056) := by decide

/-- T27: op 01, n in bits 15 to 0, the unused bits ignored. -/
theorem test_decode_packU16 : decodeTableWord 74 0x100000000ABCDEF0140 = some (.packU16 320) := by decide

/-- T42 and T46: op 10, r in bits 23 to 16, g in 15 to 8, b in 7 to 0. -/
theorem test_decode_packColor :
    decodeTableWord 74 0x2000000000000C86432 = some (.packColor 200 100 50) ∧
    decodeTableWord 74 0x2000000001234FF0000 = some (.packColor 255 0 0) := by decide

/-- T50. -/
theorem test_decode_reservedOp11 : decodeTableWord 74 0x3000000000000000005 = some .reservedOp11 := by decide

/-- T60 to T64 and T67: the frames of 43_device_commands.md R121 to R125 and R128. -/
theorem test_decode_parameterFree :
    decodeTableWord 48 0x0000000000FF = some .reset ∧ decodeTableWord 48 0x000000000066 = some .clear ∧
    decodeTableWord 48 0x000000000067 = some .toBlack ∧ decodeTableWord 48 0x00000000006C = some .screenOff ∧
    decodeTableWord 48 0x00000000006D = some .screenOn ∧
    decodeTableWord 48 0x00000000007A = some .geometryReset := by decide

/-- T65. -/
theorem test_decode_setBrightness : decodeTableWord 48 0x00000000006E = some (.setBrightness 0 0 0 0) := by decide

/-- The table of 43_device_commands.md R127: `19 C0 00 00 00 79`, and `00 00 00 00 00 79` then `67`. -/
theorem test_decode_setOrientation :
    decodeTableWord 48 0x19C000000079 = some (.setOrientation 0x67 0 0 0 0) ∧
    decodeTableWord 56 0x67000000000079 = some (.setOrientation 0 0 0 0 0x67) := by decide

/-- T68 and T15: `02 81 40 34 17 C5` and `00 00 04 FD DF C5`. -/
theorem test_decode_displayBitmap :
    decodeTableWord 48 0x0281403417C5 = some (.displayBitmap 10 20 13 23) ∧
    decodeTableWord 48 0x000004FDDFC5 = some (.displayBitmap 0 0 319 479) := by decide

/-- 30_encoding.md R72: an unlisted opcode; and a parameter on a command that has none. -/
theorem test_decode_rejects :
    decode (.command 0x000000000000#48 0) = .error (.unlistedOpcode 0) ∧
    decode (.command 0x004000000066#48 0) = .error .parametersNotZero ∧
    decode (.command 0x000000000066#48 1) = .error .strayByte := by decide

/-! ### The spec's vectors -/

/-- T9, T12 and T18. -/
theorem test_packCmd_frames :
    (packFrame 0xAB 0x123 0x234 0x345 0x056).bytes = [0x48, 0xE3, 0x4D, 0x14, 0x56, 0xAB] ∧
    (packFrame 0xC5 1024 0 1025 0).bytes = [0x00, 0x00, 0x00, 0x04, 0x00, 0xC5] ∧
    (packFrame 0xC5 0x2AA 0x155 0x2AA 0x155).bytes = [0xAA, 0x95, 0x5A, 0xA9, 0x55, 0xC5] := by decide

/-- T1, as a step from reset. -/
theorem test_packCmd_step :
    step (State.reset.withFetchWord 74 0x0C5000A0014000D0017) =
      .next { State.reset with
        ports := { State.reset.ports with cmdOpcode := 0xC5, cmdP1 := 10, cmdP2 := 20, cmdP3 := 13, cmdP4 := 23 }
        responses := [.frame { b0 := 0x02, b1 := 0x81, b2 := 0x40, b3 := 0x34, b4 := 0x17, b5 := 0xC5 }] } := rfl

/-- T23 and T25. -/
theorem test_packU16_bytes :
    (u16Low 0x1234, u16High 0x1234) = (0x34#8, 0x12#8) ∧ (u16Low 0x0100, u16High 0x0100) = (0x00#8, 0x01#8) := by decide

/-- T22, as a step from reset. -/
theorem test_packU16_step :
    step (State.reset.withFetchWord 74 0x10000000000000001E0) =
      .next { State.reset with ports := { State.reset.ports with u16N := 480 }, responses := [.u16 0xE0 0x01] } := rfl

/-- T36, T42, T43 and T45. -/
theorem test_packColor_words :
    packColorWord 9 5 9 = 0x0821 ∧ packColorWord 200 100 50 = 0xC306 ∧ packColorWord 128 64 32 = 0x79E3 ∧
    packColorWord 246 250 246 = 0xEFBD := by decide

/-- T30, as a step from reset. -/
theorem test_packColor_step :
    step (State.reset.withFetchWord 74 0x2000000000000FF0000) =
      .next { State.reset with ports := { State.reset.ports with colR := 255 }, responses := [.color 0xF800] } := rfl

/-- Entries of the scaling tables of 42_color_converter.md R104 at both ends of an interval. -/
theorem test_scale_tables :
    [(32, 3), (33, 4), (140, 17), (181, 22), (222, 26), (223, 27)].all
      (fun e => scale (BitVec.ofNat 8 e.1) 31 == e.2) = true ∧
    [(84, 20), (85, 21), (89, 21), (90, 22), (169, 41), (170, 42), (174, 42)].all
      (fun e => scale (BitVec.ofNat 8 e.1) 63 == e.2) = true := by decide

/-- T50: no response, a refusal. -/
theorem test_reservedOp11_step :
    step (State.reset.withFetchWord 74 0x3000000000000000005) = .refused .reservedOperation := rfl

/-- T65. -/
theorem test_setBrightness_step : step (State.reset.withFetchWord 48 0x6E) = .refused .brightnessLayout := rfl

/-- T60 to T64 and T67, placed from outside on a machine just after reset: each puts its message on the wire. -/
theorem test_parameterFree_steps :
    [(0xFF, MessageKind.reset, [0x00, 0x00, 0x00, 0x00, 0x00, 0xFF]), (0x66, .clear, [0x00, 0x00, 0x00, 0x00, 0x00, 0x66]),
      (0x67, .toBlack, [0x00, 0x00, 0x00, 0x00, 0x00, 0x67]), (0x6C, .screenOff, [0x00, 0x00, 0x00, 0x00, 0x00, 0x6C]),
      (0x6D, .screenOn, [0x00, 0x00, 0x00, 0x00, 0x00, 0x6D]),
      (0x7A, .geometryReset, [0x00, 0x00, 0x00, 0x00, 0x00, 0x7A, 0x00, 0x00, 0x00, 0x00, 0x00, 0x00, 0x00, 0x00, 0x00,
        0x00])].all
      (fun e => match step (State.reset.withFetchWord 48 e.1) with
        | .next t => t.wire.getLast? == some { kind := e.2.1, bytes := e.2.2, fate := .completes }
        | _ => false) = true := rfl

/-- Program P5, and 92_eei_decisions.md D20: the host's integers are on the ports as their low 16 bits, and in the frame
modulo 1024. -/
theorem test_bitmap_ports :
    [((1024 : Int), 0x0400#16, 0x0401#16, [0x00, 0x00, 0x00, 0x04, 0x00, 0xC5]),
      (-1, 0xFFFF#16, 0x0000#16, [0xFF, 0xC0, 0x00, 0x00, 0x00, 0xC5])].all
      (fun e => match exec (bitmapInstr e.1 0 2 1) { (State.reset.booted) with
          bitmaps := [{ x := e.1, y := 0, decoded := .image { width := 2, rows := [[⟨0, 0, 0⟩, ⟨0, 0, 0⟩]] } }] } with
        | .next t => t.ports.cmdP1 == e.2.1 && t.ports.cmdP3 == e.2.2.1 &&
            t.wire.getLast? == some { kind := .bitmapHeader 1, bytes := e.2.2.2, fate := .completes }
        | _ => false) = true := rfl

/-- 43_device_commands.md R136: a closed Transport is opened at the host's path with the rule's parameters. -/
theorem test_reset_opens_path :
    (match exec .reset { State.reset with openPath := "/dev/ttyUSB0" } with
      | .next t => t.transport == some (⟨"/dev/ttyUSB0", 9600, 8, 1, .none⟩ : TransportParams)
      | _ => false) = true := by decide

/-- T68, placed likewise: the header is on the wire and four rows are due. -/
theorem test_displayBitmap_step :
    (match step (State.reset.withFetchWord 48 0x0281403417C5) with
      | .next t => t.wire.getLast? ==
          some { kind := .bitmapHeader 4, bytes := [0x02, 0x81, 0x40, 0x34, 0x17, 0xC5], fate := .completes } &&
          t.raster.length == 4
      | _ => false) = true := rfl

/-- 43_device_commands.md R127, R130: a placed SetOrientation for Landscape, reversed, leaves the DisplayState of
program P3. -/
theorem test_setOrientation_step :
    (match step (State.reset.withFetchWord 48 0x19C000000079) with
      | .next t => t.display == some { width := 480, height := 320, orientation := .landscape, reverse := true }
      | _ => false) = true := rfl

/-- Program P1 under both parameter slots: 37 and 38 bytes. -/
theorem test_init_bytes (order : PixelWireOrder) :
    HostCall.init.bytes order .p1 =
      [[0x00, 0x00, 0x00, 0x00, 0x00, 0xFF],
        [0x00, 0x00, 0x00, 0x00, 0x00, 0x7A, 0x00, 0x00, 0x00, 0x00, 0x00, 0x00, 0x00, 0x00, 0x00, 0x00],
        [0x19, 0x00, 0x00, 0x00, 0x00, 0x79, 0x40, 0x01, 0xE0, 0x01, 0x00, 0x00, 0x00, 0x00, 0x00]] ∧
    (HostCall.init.bytes order .trailingByte).getLast? =
      some [0x00, 0x00, 0x00, 0x00, 0x00, 0x79, 0x64, 0x40, 0x01, 0xE0, 0x01, 0x00, 0x00, 0x00, 0x00, 0x00] := by
  cases order <;> decide

/-- Program P3: the Landscape, reversed message under both parameter slots. -/
theorem test_landscape_bytes (order : PixelWireOrder) :
    ((HostCall.setOrientation .landscape true).bytes order .p1).getLast? =
      some [0x19, 0xC0, 0x00, 0x00, 0x00, 0x79, 0xE0, 0x01, 0x40, 0x01, 0x00, 0x00, 0x00, 0x00, 0x00] ∧
    ((HostCall.setOrientation .landscape true).bytes order .trailingByte).getLast? =
      some [0x00, 0x00, 0x00, 0x00, 0x00, 0x79, 0x67, 0xE0, 0x01, 0x40, 0x01, 0x00, 0x00, 0x00, 0x00, 0x00] := by
  cases order <;> decide

/-- The image of program P4. -/
def imageP4 : Image :=
  { width := 2
    rows := [[⟨0, 0, 0⟩, ⟨255, 255, 255⟩], [⟨128, 64, 32⟩, ⟨9, 5, 9⟩]] }

/-- Program P4 under both pixel orders. -/
theorem test_bitmap_bytes (slot : OrientParamSlot) :
    (HostCall.displayBitmap 100 200 (.image imageP4)).bytes .le slot =
      [[0x19, 0x0C, 0x81, 0x94, 0xC9, 0xC5], [0x00, 0x00, 0xFF, 0xFF], [0xE3, 0x79, 0x21, 0x08]] ∧
    (HostCall.displayBitmap 100 200 (.image imageP4)).bytes .be slot =
      [[0x19, 0x0C, 0x81, 0x94, 0xC9, 0xC5], [0x00, 0x00, 0xFF, 0xFF], [0x79, 0xE3, 0x08, 0x21]] := by
  cases slot <;> decide

/-- Program P5: the Rectangle of a 2 by 1 image at (1024, 0) wraps. -/
theorem test_bitmap_wraps : messageBytes .le (headerFor 1024 0 2 1) = [0x00, 0x00, 0x00, 0x04, 0x00, 0xC5] := by decide

/-- The assembler's zero operands and its refusal (30_encoding.md R70, R74). -/
theorem test_assembler :
    assemblePackCmd 0xC5 [10, 20] = .ok (.packCmd 0xC5 10 20 0 0) ∧ assemblePackCmd 256 [] = .error .validationError ∧
    assemblePackU16 65536 = .error .validationError ∧ assemblePackColor 0 256 0 = .error .validationError := by decide

/-! ### States for the witnesses -/

/-- A completed message of a kind. -/
def sent (k : MessageKind) : Written := { kind := k, bytes := [], fate := .completes }

/-- A session whose init has run. -/
def readyState : State :=
  { State.reset with
    session := .ready
    display := some { width := 320, height := 480, orientation := .portrait, reverse := false }
    transport := some { path := "", baud := 9600, dataBits := 8, stopBits := 1, parity := .none }
    wire := [sent .reset, sent .geometryReset, sent (.setOrientation .portrait false)] }

/-- A session in the middle of its init: the geometry reset is written. -/
def bootState : State :=
  { readyState with session := .uninitialized, display := none, wire := [sent .reset, sent .geometryReset] }

/-- A 2 by 2 bitmap whose header is written. -/
def rasterState : State :=
  { readyState with wire := readyState.wire ++ [sent (.bitmapHeader 2)], raster := imageP4.rows }

/-- A geometry reset is written: its SetOrientation is due. -/
def handshakeState : State := { readyState with wire := readyState.wire ++ [sent .geometryReset] }

theorem readyState_canSend : readyState.CanSend := by
  refine ⟨⟨?_, rfl, rfl, ?_⟩, rfl⟩ <;> decide

theorem readyState_inv : readyState.Inv := by
  refine ⟨⟨.idle, rfl, fun _ _ => .inr (.inl ⟨rfl, .inl rfl, rfl⟩)⟩, ?_, fun _ => ⟨by decide, by decide⟩, ?_, nofun⟩
  · intro d h
    cases h
    rfl
  · intro params h
    cases h
    rfl

theorem rasterState_inv : rasterState.Inv := by
  refine ⟨⟨.rows 1, rfl, fun _ _ => .inr (.inr ⟨rfl, 1, rfl, rfl⟩)⟩, ?_, fun _ => ⟨by decide, by decide⟩, ?_, nofun⟩
  · intro d h
    cases h
    rfl
  · intro params h
    cases h
    rfl

/-! ### A witness for the hypotheses of each statement -/

theorem test_witness_RequestFormats :
    (0x0C5000A0014000D0017#74).extractLsb' 72 2 = 0#2 ∧ (0x100000000ABCDEF0140#74).extractLsb' 72 2 = 1#2 ∧
    (0x2000000000000C86432#74).extractLsb' 72 2 = 2#2 ∧ (0x3000000000000000005#74).extractLsb' 72 2 = 3#2 := by decide

/-- Two words of each format that differ in ignored bits only. -/
theorem test_witness_UnusedRequestBitsIgnored :
    (0x100000000ABCDEF0140#74 ≠ 0x1000000000000000140#74 ∧
      (0x100000000ABCDEF0140#74).extractLsb' 0 16 = (0x1000000000000000140#74).extractLsb' 0 16) ∧
    (0x2000000001234FF0000#74 ≠ 0x2000000000000FF0000#74 ∧
      (0x2000000001234FF0000#74).extractLsb' 0 24 = (0x2000000000000FF0000#74).extractLsb' 0 24) ∧
    (0x0C50400000004010000#74 ≠ 0x0C50000000000010000#74 ∧
      (0x0C50400000004010000#74).extractLsb' 72 2 = 0#2 ∧ (0x0C50000000000010000#74).extractLsb' 72 2 = 0#2 ∧
      (0x0C50400000004010000#74).extractLsb' 64 8 = (0x0C50000000000010000#74).extractLsb' 64 8 ∧
      (0x0C50400000004010000#74).extractLsb' 48 10 = (0x0C50000000000010000#74).extractLsb' 48 10 ∧
      (0x0C50400000004010000#74).extractLsb' 32 10 = (0x0C50000000000010000#74).extractLsb' 32 10 ∧
      (0x0C50400000004010000#74).extractLsb' 16 10 = (0x0C50000000000010000#74).extractLsb' 16 10 ∧
      (0x0C50400000004010000#74).extractLsb' 0 10 = (0x0C50000000000010000#74).extractLsb' 0 10) := by decide

theorem test_witness_PackCmdAnswersFrame : 255 < 256 := by decide

theorem test_witness_ReservedOperationRefused : (0x3000000000000000005#74).extractLsb' 72 2 = 3#2 := by decide

/-- SetOrientation is the one instruction with a form: both places of its byte, at both ends of its range. -/
theorem test_witness_DecodeEncodeRoundTrip :
    (Instr.setOrientation 0x64 0 0 0 0).wellFormed = true ∧ (Instr.setOrientation 0 0 0 0 0x67).wellFormed = true := by
  decide

theorem test_witness_EncodeDecodeRoundTrip :
    decode (.command 0x0281403417C5#48 0) = .ok (.displayBitmap 10 20 13 23) ∧
    (0x0C5000A0014000D0017#74).extractLsb' 72 2 = 0#2 := by decide

theorem test_witness_UnlistedOpcodesRefused :
    (0x000000000068#48).extractLsb' 0 8 ∉
      [0x66#8, 0x67#8, 0x6C#8, 0x6D#8, 0x6E#8, 0x79#8, 0x7A#8, 0xC5#8, 0xFF#8] ∧
    (0x00000000006E#48).extractLsb' 0 8 = 0x6E#8 := by decide

/-- A parameter on Reset; a byte after a Clear and after a DisplayBitmap. -/
theorem test_witness_MalformedCommandWordsRefused :
    ((0x0040000000FF#48).extractLsb' 0 8 ∈ [0xFF#8, 0x66#8, 0x67#8, 0x6C#8, 0x6D#8, 0x7A#8] ∧
      (0x0040000000FF#48).extractLsb' 8 40 ≠ 0#40) ∧
    ((0x000000000066#48).extractLsb' 0 8 ∈ [0xFF#8, 0x66#8, 0x67#8, 0x6C#8, 0x6D#8, 0x7A#8] ∧
      (0x000000000066#48).extractLsb' 8 40 = 0#40 ∧ 1#8 ≠ 0) ∧
    ((0x0281403417C5#48).extractLsb' 0 8 ∈ [0x6E#8, 0xC5#8] ∧ 1#8 ≠ 0) := by decide

theorem test_witness_ScalingMonotoneAndBounded : (31 = 31 ∨ 31 = 63) ∧ (63 = 31 ∨ 63 = 63) ∧ 8#8 ≤ 9#8 := by decide

theorem test_witness_ParameterFreeCommandsWrite : readyState.CanSend := readyState_canSend

theorem test_witness_ResetWritesFrame : bootState.CanSend := by
  refine ⟨⟨?_, rfl, rfl, ?_⟩, rfl⟩ <;> decide

theorem test_witness_ResetOpensTransport :
    (State.reset.session ≠ .failed ∧ State.reset.hung = false ∧ State.reset.transport = none ∧
      State.reset.openFails = false ∧ State.reset.raster = [] ∧ State.reset.nextFate = .completes) ∧
    (∃ s : State, s.session ≠ .failed ∧ s.hung = false ∧ s.transport = none ∧ s.openFails = true) :=
  ⟨by decide, { State.reset with openFails := true }, by decide⟩

theorem test_witness_GeometryResetWrites : readyState.CanSend := readyState_canSend

theorem test_witness_OrientationMessageLayout :
    (0x67#8 = 0x64 ||| (if true = true then 0x01 else 0x00) ||| (if Orientation.landscape = .landscape then 0x02 else 0x00)) ∧
    (480#16 = if Orientation.landscape = .landscape then 480 else 320) ∧
    (320#16 = if Orientation.landscape = .landscape then 320 else 480) := by decide

/-- During init, where it makes the session Ready, and in a later handshake. -/
theorem test_witness_SetOrientationWrites :
    (bootState.CanSend ∧ bootState.session = .uninitialized ∧ bootState.kinds = [.reset, .geometryReset]) ∧
    handshakeState.CanSend := by
  refine ⟨⟨⟨⟨?_, rfl, rfl, ?_⟩, rfl⟩, rfl, rfl⟩, ⟨?_, rfl, rfl, ?_⟩, rfl⟩ <;> decide

theorem test_witness_IllFormedOrientationRefused : (Instr.setOrientation 0x68 0 0 0 0).wellFormed = false := by decide

/-- The image of program P4 at a place inside the screen, and one where every coordinate wraps. -/
theorem test_witness_BitmapHeaderWritten :
    (∃ s : State, s.CanSend ∧ s.bitmaps = { x := 100, y := 200, decoded := .image imageP4 } :: [] ∧ imageP4.Drawable ∧
      ((100#10).toNat : Int) = 100 % 1024 ∧ ((200#10).toNat : Int) = 200 % 1024 ∧
      ((101#10).toNat : Int) = (100 + imageP4.width - 1) % 1024 ∧
      ((201#10).toNat : Int) = (200 + imageP4.height - 1) % 1024) ∧
    (∃ s : State, s.CanSend ∧ s.bitmaps = { x := -1, y := 1024, decoded := .image imageP4 } :: [] ∧
      ((1023#10).toNat : Int) = -1 % 1024 ∧ ((0#10).toNat : Int) = 1024 % 1024 ∧
      ((0#10).toNat : Int) = (-1 + imageP4.width - 1) % 1024 ∧
      ((1#10).toNat : Int) = (1024 + imageP4.height - 1) % 1024) := by
  refine ⟨⟨{ readyState with bitmaps := [_] }, ⟨⟨?_, rfl, rfl, ?_⟩, rfl⟩, rfl, ⟨?_, ?_, ?_⟩, ?_⟩,
    ⟨{ readyState with bitmaps := [_] }, ⟨⟨?_, rfl, rfl, ?_⟩, rfl⟩, rfl, ?_⟩⟩ <;> decide

/-- A call that does not decode; an image without columns and one without rows; another Rectangle and a ragged image;
and no call. -/
theorem test_witness_UndrawableImagesWriteNothing :
    (∃ (s : State) (call : BitmapCall), s.bitmaps = call :: [] ∧ call.decoded = .failed ∧ s.midOperation = false) ∧
    (({ width := 0, rows := [[]] } : Image).width = 0 ∧ ({ width := 1, rows := [] } : Image).rows = []) ∧
    (∃ (s : State) (call : BitmapCall), s.bitmaps = call :: [] ∧ call.decoded = .image imageP4 ∧
      0 < imageP4.width ∧ imageP4.rows ≠ [] ∧ ((0#10).toNat : Int) ≠ call.x % 1024) ∧
    (0 < ({ width := 2, rows := [[⟨0, 0, 0⟩]] } : Image).width ∧
      ¬ ∀ row ∈ ({ width := 2, rows := [[⟨0, 0, 0⟩]] } : Image).rows, row.length = 2) ∧
    readyState.bitmaps = [] :=
  ⟨⟨{ readyState with bitmaps := [⟨0, 0, .failed⟩] }, _, rfl, rfl, rfl⟩, ⟨rfl, rfl⟩,
    ⟨{ readyState with bitmaps := [⟨1, 0, .image imageP4⟩] }, _, rfl, rfl, by decide, by decide, by decide⟩,
    by decide, rfl⟩

/-- Just after reset, with a parameter-free command and with a DisplayBitmap. -/
theorem test_witness_ClosedTransportRefused :
    (State.reset.session ≠ .failed ∧ State.reset.hung = false ∧ State.reset.raster = [] ∧
      State.reset.transport = none ∧ State.reset.messageOf .clear = some .clear) ∧
    (∃ s : State, s.session ≠ .failed ∧ s.hung = false ∧ s.raster = [] ∧ s.transport = none ∧
      s.bitmaps = { x := 100, y := 200, decoded := .image imageP4 } :: [] ∧ imageP4.Drawable) :=
  ⟨by decide, { State.reset with bitmaps := [_] }, by decide, rfl, rfl, rfl, rfl, by decide, by decide, by decide⟩

/-- With a row after it, and as the last row. -/
theorem test_witness_RowWritten :
    (∃ (s : State) (row : List Rgb), s.raster = row :: imageP4.rows.tail ∧ s.session ≠ .failed ∧ s.hung = false ∧
      s.transport ≠ none ∧ s.nextFate = .completes ∧ s.turns.head? ≠ some .caller) ∧
    (∃ (s : State) (row : List Rgb), s.raster = row :: [] ∧ s.session ≠ .failed ∧ s.hung = false ∧
      s.transport ≠ none ∧ s.nextFate = .completes ∧ s.turns.head? ≠ some .caller) :=
  ⟨⟨rasterState, _, rfl, by decide, rfl, by decide, rfl, by decide⟩,
    ⟨{ rasterState with raster := rasterState.raster.tail }, _, rfl, by decide, rfl, by decide, rfl, by decide⟩⟩

theorem test_witness_FailedWriteStopsOperation :
    ∃ s u : State, s.fates = .fails :: [] ∧ exec .clear { s with fates := .completes :: [] } = .next u ∧
      u.wire ≠ s.wire :=
  ⟨{ readyState with fates := [.fails] }, _, rfl, rfl, by simp [State.succeed]⟩

theorem test_witness_FailedRowAbortsBitmap :
    ∃ s : State, s.raster = imageP4.rows ∧ s.session ≠ .failed ∧ s.hung = false ∧ s.transport ≠ none ∧
      s.nextFate = .fails ∧ s.turns.head? ≠ some .caller :=
  ⟨{ rasterState with fates := [.fails] }, rfl, by decide, rfl, by decide, rfl, by decide⟩

/-- An instruction's write, and a row's. -/
theorem test_witness_HungWriteKeepsOperation :
    (∃ s u : State, s.fates = .hangs :: [] ∧ exec .clear { s with fates := .completes :: [] } = .next u ∧
      u.wire ≠ s.wire) ∧
    (∃ s : State, s.raster = imageP4.rows ∧ s.session ≠ .failed ∧ s.hung = false ∧ s.transport ≠ none ∧
      s.nextFate = .hangs ∧ s.turns.head? ≠ some .caller) :=
  ⟨⟨{ readyState with fates := [.hangs] }, _, rfl, rfl, by simp [State.succeed]⟩,
    ⟨{ rasterState with fates := [.hangs] }, rfl, by decide, rfl, by decide, rfl, by decide⟩⟩

/-- A request to the FCE still runs on a Failed session; and a message there is a fault. -/
theorem test_witness_FailedSessionStuck :
    (∃ s t : State, s.session = .failed ∧ step s = .next t ∧ s ≠ t) ∧
    (∃ (s : State) (k : MessageKind), s.session = .failed ∧ s.raster = [] ∧ s.messageOf .clear = some k) :=
  ⟨⟨{ readyState with session := .failed, program := [[encode (.packU16 320)]] }, _, rfl, rfl, by decide⟩,
    ⟨{ readyState with session := .failed }, _, rfl, rfl, rfl⟩⟩

theorem test_witness_HungWriteBlocksOwner :
    (∃ s : State, s.hung = true ∧ s.turns.head? ≠ some .caller) ∧
    (∃ s t : State, s.hung = true ∧ step s = .next t) ∧
    (∃ (s : State) (k : MessageKind), s.hung = true ∧ s.session ≠ .failed ∧ s.messageOf .clear = some k) ∧
    (∃ s : State, s.hung = true ∧ s.session ≠ .failed ∧
      s.bitmaps = { x := 100, y := 200, decoded := .image imageP4 } :: [] ∧ imageP4.Drawable) ∧
    (∃ s : State, s.hung = true ∧ s.turns.head? = some .caller ∧
      s.program = [.request 0x1000000000000000140#74] :: [] ∧ (0x1000000000000000140#74).extractLsb' 72 2 ≠ 3#2) :=
  ⟨⟨{ readyState with hung := true }, rfl, by decide⟩, ⟨{ readyState with hung := true }, _, rfl, rfl⟩,
    ⟨{ readyState with hung := true }, _, rfl, by decide, rfl⟩,
    ⟨{ readyState with hung := true, bitmaps := [_] }, rfl, by decide, rfl, by decide, by decide, by decide⟩,
    ⟨{ readyState with hung := true, turns := [.caller], program := [[_]] }, rfl, rfl, rfl, by decide⟩⟩

/-- After none, one and two of the init messages. -/
theorem test_witness_MessagesBeforeInitRefused :
    (State.reset.session ≠ .failed ∧ State.reset.hung = false ∧ State.reset.kinds = [] ∧
      State.reset.messageOf .clear = some .clear) ∧
    ({ bootState with wire := [sent .reset] } : State).kinds = [.reset] ∧
    (bootState.session ≠ .failed ∧ bootState.hung = false ∧ bootState.kinds = [.reset, .geometryReset] ∧
      bootState.messageOf (.setOrientation 0x66 0 0 0 0) = some (.setOrientation .landscape false) ∧
      (Instr.setOrientation 0x66 0 0 0 0).wellFormed = true) := by decide

/-- Rows are due: a second displayBitmap, and a Reset; then a geometry reset is written; then nothing is in progress. -/
theorem test_witness_OneOperationAtATime :
    (∃ s : State, s.session ≠ .failed ∧ s.hung = false ∧ s.phase = .next (.rows 1) ∧
      s.messageOf (bitmapInstr 0 0 2 2) = some (.bitmapHeader 2) ∧ s.messageOf .reset = some .reset) ∧
    (handshakeState.session ≠ .failed ∧ handshakeState.hung = false ∧
      handshakeState.messageOf .geometryReset = some .geometryReset ∧ handshakeState.phase = .next .geometrySent) ∧
    (readyState.session ≠ .failed ∧ readyState.hung = false ∧ readyState.phase = .next .idle) ∧
    (rasterState.raster ≠ [] ∧ rasterState.session ≠ .failed ∧ rasterState.messageOf .clear = some .clear) :=
  ⟨⟨{ rasterState with bitmaps := [⟨0, 0, .image imageP4⟩] }, by decide, rfl, rfl, rfl, rfl⟩,
    ⟨by decide, rfl, rfl, rfl⟩, ⟨by decide, rfl, rfl⟩, ⟨by decide, by decide, rfl⟩⟩

/-- A row, an instruction, and a step that waits. -/
theorem test_witness_StepKeepsInvariant :
    (rasterState.Inv ∧ ∃ t, step rasterState = .next t) ∧ (readyState.Inv ∧ ∃ t, step readyState = .next t) ∧
    (∃ s t : State, s.Inv ∧ s.program = [[encode .clear]] ∧ step s = .next t) :=
  ⟨⟨rasterState_inv, _, rfl⟩, ⟨readyState_inv, _, rfl⟩,
    ⟨{ readyState with program := [[encode .clear]] }, _,
      ⟨readyState_inv.1, readyState_inv.2, readyState_inv.3, readyState_inv.4, readyState_inv.5⟩, rfl, rfl⟩⟩

/-- A SetOrientation, a header, the second of two rows, and a Reset. -/
theorem test_witness_InvariantMeansOrderRules :
    (rasterState.Inv ∧
      rasterState.kinds = [.reset, .geometryReset] ++ .setOrientation .portrait false :: [.bitmapHeader 2] ∧
      rasterState.kinds = [.reset, .geometryReset, .setOrientation .portrait false] ++ .bitmapHeader 2 :: [] ∧
      rasterState.kinds = [] ++ .reset :: [.geometryReset, .setOrientation .portrait false, .bitmapHeader 2]) ∧
    (∃ s : State, s.Inv ∧ s.kinds = [.reset, .geometryReset, .setOrientation .portrait false, .bitmapHeader 2, .row] ++
      .row :: []) := by
  refine ⟨⟨rasterState_inv, rfl, rfl, rfl⟩,
    { readyState with wire := rasterState.wire ++ [sent .row, sent .row] }, ?_, rfl⟩
  exact ⟨⟨.idle, rfl, fun _ _ => .inr (.inl ⟨rfl, .inl rfl, rfl⟩)⟩, readyState_inv.2, fun _ => ⟨by decide, by decide⟩,
    readyState_inv.4, nofun⟩

theorem test_witness_WireOnlyGrows : ∃ t, step rasterState = .next t ∧ t.wire ≠ rasterState.wire :=
  ⟨_, rfl, by simp [State.rowDone]⟩

theorem test_witness_DisplayChangedOnlyBySetOrientation :
    ∃ s t : State, step s = .next t ∧ t.display ≠ s.display :=
  ⟨{ handshakeState with current := [encode (.setOrientation 0x66 0 0 0 0)] }, _, rfl, by decide⟩

/-- init's last write makes the session Ready; a failing write makes it Failed. -/
theorem test_witness_SessionTransitions :
    (∃ s t : State, s.session = .uninitialized ∧ step s = .next t ∧ t.session = .ready) ∧
    (∃ s t : State, s.session = .ready ∧ step s = .next t ∧ t.session = .failed) :=
  ⟨⟨{ bootState with current := [encode (.setOrientation 0x64 0 0 0 0)] }, _, rfl, rfl, by
      simp [State.initWritten, State.kinds, bootState, readyState, sent, initKinds]⟩,
    ⟨{ readyState with program := [[encode .clear]], fates := [.fails] }, _, rfl, rfl, rfl⟩⟩

theorem test_witness_ResetSession : ∃ d, readyState.display = some d := ⟨_, rfl⟩

/-- A word of the operation in progress, and the first word of the next one; a caller's device command and request while
an operation is in progress, and the owner's second operation; a caller on an idle session. -/
theorem test_witness_StepRunsDecodedInstruction :
    (∃ s : State, s.turns.head? ≠ some .caller ∧ s.hung = false ∧ s.raster = [] ∧
      decode (encode .clear) = .ok .clear ∧ s.admits .clear = .next () ∧ s.current = encode .clear :: []) ∧
    (∃ s : State, s.turns.head? ≠ some .caller ∧ s.hung = false ∧ s.raster = [] ∧ s.admits .clear = .next () ∧
      s.current = [] ∧ s.midOperation = false ∧ s.program = (encode .clear :: []) :: []) ∧
    (∃ s : State, s.program = (encode .clear :: []) :: [] ∧ s.turns.head? = some .caller ∧ s.busy = true ∧
      ofHostOperation .clear = true) ∧
    (∃ s : State, s.program = (encode (.packU16 320) :: []) :: [] ∧ s.turns.head? = some .caller ∧ s.busy = true ∧
      decode (encode (.packU16 320)) = .ok (.packU16 320) ∧ ofHostOperation (.packU16 320) = false) ∧
    (∃ s : State, s.program = (encode .clear :: []) :: [] ∧ s.turns.head? ≠ some .caller ∧ s.hung = false ∧
      s.raster = [] ∧ s.current = [] ∧ s.midOperation = true) ∧
    (∃ s : State, s.turns.head? = some .caller ∧ s.busy = false) :=
  ⟨⟨{ readyState with current := [encode .clear] }, by decide, rfl, rfl, by decide, rfl, rfl⟩,
    ⟨{ readyState with program := [[encode .clear]] }, by decide, rfl, rfl, rfl, rfl, rfl, rfl⟩,
    ⟨{ rasterState with program := [[encode .clear]], turns := [.caller] }, rfl, rfl, rfl, rfl⟩,
    ⟨{ rasterState with program := [[encode (.packU16 320)]], turns := [.caller] }, rfl, rfl, rfl, by decide, rfl⟩,
    ⟨{ handshakeState with program := [[encode .clear]] }, rfl, by decide, rfl, rfl, rfl, rfl⟩,
    ⟨{ readyState with turns := [.caller] }, rfl, rfl⟩⟩

/-- A caller's request in the middle of a bitmap. -/
theorem test_witness_CallerCannotInterleave :
    ∃ s t : State, s.turns.head? = some .caller ∧ s.busy = true ∧ step s = .next t ∧ t ≠ s :=
  ⟨{ rasterState with program := [[encode (.packU16 320)]], turns := [.caller] }, _, rfl, rfl, rfl, by decide⟩

/-- 60_exceptions.md R162: after init's Reset, another caller's geometry reset is the host's fault, and so is its
SetOrientation(Portrait) after init's geometry reset; neither takes the place of init's own message. -/
theorem test_caller_faults_during_init :
    [(bootState.wire.take 1, encode .geometryReset), (bootState.wire, encode (.setOrientation 0x64 0 0 0 0))].all
      (fun e => match step { bootState with
          wire := e.1, current := [encode .screenOn], program := [[e.2]], turns := [.caller] } with
        | .fault f => f == .operationInFlight
        | _ => false) = true := by decide

theorem test_witness_PlacedWordRunsNext : decodeTableWord 48 0x66 = some .clear := by decide

/-- With the Transport closed, and with it open already (program P1 of 95_test_vectors.md). -/
theorem test_witness_InitRuns :
    (∃ s : State, s.session = .uninitialized ∧ s.wire = [] ∧ s.hung = false ∧ s.raster = [] ∧
      (s.transport = none ∧ s.openFails = false) ∧ s.current = [] ∧ s.turns = [] ∧
      (∀ fate ∈ s.fates, fate = .completes) ∧ s.program = HostCall.init.words Config.orientParamSlot :: []) ∧
    (∃ s : State, s.session = .uninitialized ∧ s.wire = [] ∧ s.hung = false ∧ s.raster = [] ∧
      s.transport ≠ none ∧ s.current = [] ∧ s.turns = [] ∧
      (∀ fate ∈ s.fates, fate = .completes) ∧ s.program = HostCall.init.words Config.orientParamSlot :: []) :=
  ⟨⟨State.reset.submit .init, rfl, rfl, rfl, rfl, ⟨rfl, rfl⟩, rfl, rfl, nofun, rfl⟩,
    ⟨{ (State.reset.submit .init) with transport := readyState.transport }, rfl, rfl, rfl, rfl, by decide, rfl, rfl,
      nofun, rfl⟩⟩

theorem readyState_quiet (c : HostCall) : (readyState.submit c).Quiet := ⟨rfl, rfl, rfl, rfl, rfl, nofun, rfl⟩

/-- An operation of one message, one of two, and a bitmap, on a Ready session. -/
theorem test_witness_HostOperationWritesItsMessages :
    ∀ c ∈ [HostCall.clear, .setOrientation .landscape true, .displayBitmap 100 200 (.image imageP4)],
      ∃ s : State, s.Quiet ∧ c ≠ .init ∧ c.Drawable ∧ s.program = c.words Config.orientParamSlot :: [] ∧
        s.bitmaps = c.bitmaps ++ [] ∧ (∀ fate ∈ s.fates, fate = .completes) := by
  intro c h
  refine ⟨readyState.submit c, readyState_quiet c, ?_, ?_, rfl, by simp [State.submit, readyState, State.reset], nofun⟩
  all_goals
    simp only [List.mem_cons, List.not_mem_nil, or_false] at h
    rcases h with rfl | rfl | rfl
  · nofun
  · nofun
  · nofun
  · trivial
  · trivial
  · exact ⟨by decide, by decide, by decide⟩

theorem test_witness_MessageLengths : imageP4.Drawable := ⟨by decide, by decide, by decide⟩

/-- A Rectangle that ends at the last coordinate a frame can carry. -/
theorem test_witness_ReaderFindsMessageBoundaries :
    ∀ c ∈ [HostCall.init, .displayBitmap 1022 1022 (.image imageP4), .displayBitmap 0 0 .failed], c.Unwrapped := by
  intro c h
  simp only [List.mem_cons, List.not_mem_nil, or_false] at h
  rcases h with rfl | rfl | rfl
  · trivial
  · exact ⟨⟨by decide, by decide, by decide⟩, by decide, by decide, by decide, by decide⟩
  · trivial

/-- Operands at the ends of their fields, and one past them. -/
theorem test_witness_AssemblerRefusesWideOperands :
    (255 < 256 ∧ [65535, 0, 65535, 0].length ≤ 4 ∧ ∀ p ∈ [65535, 0, 65535, 0], p < 65536) ∧
    ¬ (256 < 256 ∧ ([] : List Nat).length ≤ 4 ∧ ∀ p ∈ ([] : List Nat), p < 65536) ∧
    ¬ (0 < 256 ∧ [0, 0, 0, 0, 0].length ≤ 4 ∧ ∀ p ∈ [0, 0, 0, 0, 0], p < 65536) ∧
    ¬ (65536 < 65536) ∧ ¬ (256 < 256 ∧ 0 < 256 ∧ 0 < 256) := by decide

end Sys2Proof.Machine
end

section
/-! The obligations of 10_state.md: the FCE's three operations, what one step does to the session, the wire and
DisplayState, which instruction a step executes, and placing an instruction from outside. -/

namespace Sys2Proof.Machine

/-! ### The FCE's operations and their output ports -/

theorem exec_packCmd (opcode : Byte) (p1 p2 p3 p4 : BitVec 16) (s : State) :
    exec (.packCmd opcode p1 p2 p3 p4) s = .next (s.present (.cmd opcode p1 p2 p3 p4)) := rfl

theorem exec_packU16 (n : BitVec 16) (s : State) : exec (.packU16 n) s = .next (s.present (.u16 n)) := rfl

theorem exec_packColor (r g b : Byte) (s : State) : exec (.packColor r g b) s = .next (s.present (.color r g b)) := rfl

@[simp] theorem State.frameB_present_cmd (s : State) (opcode : Byte) (p1 p2 p3 p4 : BitVec 16) :
    (s.present (.cmd opcode p1 p2 p3 p4)).frameB = packFrame opcode p1 p2 p3 p4 := rfl
@[simp] theorem State.u16B_present_cmd (s : State) (opcode : Byte) (p1 p2 p3 p4 : BitVec 16) :
    (s.present (.cmd opcode p1 p2 p3 p4)).u16B = s.u16B := rfl
@[simp] theorem State.color_present_cmd (s : State) (opcode : Byte) (p1 p2 p3 p4 : BitVec 16) :
    (s.present (.cmd opcode p1 p2 p3 p4)).color = s.color := rfl

@[simp] theorem State.frameB_present_u16 (s : State) (n : BitVec 16) : (s.present (.u16 n)).frameB = s.frameB := rfl
@[simp] theorem State.u16B_present_u16 (s : State) (n : BitVec 16) :
    (s.present (.u16 n)).u16B = (u16Low n, u16High n) := rfl
@[simp] theorem State.color_present_u16 (s : State) (n : BitVec 16) : (s.present (.u16 n)).color = s.color := rfl

@[simp] theorem State.frameB_present_color (s : State) (r g b : Byte) :
    (s.present (.color r g b)).frameB = s.frameB := rfl
@[simp] theorem State.u16B_present_color (s : State) (r g b : Byte) : (s.present (.color r g b)).u16B = s.u16B := rfl
@[simp] theorem State.color_present_color (s : State) (r g b : Byte) :
    (s.present (.color r g b)).color = packColorWord r g b := rfl

/-- Settles O19: each operation presents one request, and presenting it drives one operation's ports. -/
theorem subUnitsIndependent : Obligations.SubUnitsIndependent := by
  intro s opcode p1 p2 p3 p4 n r g b
  refine ⟨⟨_, exec_packCmd .., ?_⟩, ⟨_, exec_packU16 .., ?_⟩, ⟨_, exec_packColor .., ?_⟩⟩ <;> simp

/-! ### The state right after reset -/

theorem State.phase_of_wire_nil {s : State} (h : s.wire = []) : s.phase = .next .start := by
  simp [State.phase, State.kinds, h, Phase.run]

theorem State.readDisplay_none {s : State} (h : s.display = none) : s.readDisplay = .fault .displayUnspecified := by
  simp [State.readDisplay, h]

theorem State.readDisplay_some {s : State} {d : DisplayState} (h : s.display = some d) : s.readDisplay = .next d := by
  simp [State.readDisplay, h]

/-- Settles O37: the wire is empty, so its phase is the start, and nothing else is known yet. -/
theorem resetMeetsInvariant : Obligations.ResetMeetsInvariant where
  ordered := ⟨.start, State.phase_of_wire_nil rfl, fun _ _ => .inl ⟨rfl, .inl rfl, rfl⟩⟩
  dimensioned _ hd := nomatch hd
  ready hr := nomatch hr
  opened _ hp := nomatch hp
  openForWriting hw := absurd rfl hw

/-- Settles O43: the read gives the value where there is one, so it faults nowhere else. -/
theorem resetSession : Obligations.ResetSession := by
  refine ⟨rfl, State.readDisplay_none rfl,
    fun s => ⟨⟨fun h => ?_, State.readDisplay_none⟩, fun _ => State.readDisplay_some⟩⟩
  cases hd : s.display with
  | none => rfl
  | some d => rw [State.readDisplay_some hd] at h; cases h

/-! ### What one step does to the session, the wire and DisplayState -/

/-- The word issued is the next of the operation in progress, or the first of an operation where the stream stands
inside none. -/
def Issued (s t : State) : Prop :=
  (∃ w, s.current = w :: t.current) ∨ (s.current = [] ∧ s.midOperation = false)

theorem Issued.congr {s u t : State} (h : Issued s u) (hc : t.current = u.current) : Issued s t := by
  unfold Issued
  rw [hc]
  exact h

/-- What a step from `s` to `t` did to the session, the wire and DisplayState (10_state.md R30 to R33). -/
inductive StepEffect (s t : State) : Prop where
  /-- No message was written: a wait, a request, or an image that did not decode. -/
  | silent (wire : t.wire = s.wire) (session : t.session = s.session) (display : t.display = s.display)
      (transport : t.transport = s.transport)
  /-- The Transport did not open. -/
  | notOpened (live : s.session ≠ .failed) (wire : t.wire = s.wire) (session : t.session = .failed)
      (display : t.display = s.display) (result : t.result = some (.error .transportError))
  /-- One write failed. -/
  | failed (live : s.session ≠ .failed) (k : MessageKind) (bytes : List Byte)
      (wire : t.wire = s.wire ++ [⟨k, bytes, .fails⟩]) (session : t.session = .failed)
      (display : t.display = s.display) (result : t.result = some (.error .transportError))
  /-- One write never completes. -/
  | hung (live : s.session ≠ .failed) (k : MessageKind) (bytes : List Byte)
      (wire : t.wire = s.wire ++ [⟨k, bytes, .hangs⟩]) (session : t.session = s.session)
      (display : t.display = s.display)
  /-- One message other than SetOrientation was written. -/
  | written (live : s.session ≠ .failed) (k : MessageKind) (bytes : List Byte)
      (other : ∀ o reverse, k ≠ .setOrientation o reverse)
      (wire : t.wire = s.wire ++ [⟨k, bytes, .completes⟩]) (session : t.session = s.session)
      (display : t.display = s.display)
  /-- One SetOrientation message was written: DisplayState follows it, and it is what may end init. -/
  | oriented (live : s.session ≠ .failed) (o : Orientation) (reverse : Bool) (bytes : List Byte)
      (wire : t.wire = s.wire ++ [⟨.setOrientation o reverse, bytes, .completes⟩])
      (session : t.session = if s.session = .uninitialized ∧ t.initWritten = true then .ready else s.session)
      (display : t.display = some (displayFor o reverse)) (issued : Issued s t)

/-- Only SetOrientation does something to the session or DisplayState once its message is written. -/
theorem Finishes.session_display {k : MessageKind} {done : State → State} (h : Finishes k done) :
    ((∀ o reverse, k ≠ .setOrientation o reverse) ∧
        ∀ v, (done v).session = v.session ∧ (done v).display = v.display) ∨
      ∃ o reverse, k = .setOrientation o reverse ∧ done = State.orientationSet o reverse := by
  cases h with
  | setOrientation o reverse => exact .inr ⟨o, reverse, rfl, rfl⟩
  | _ => exact .inl ⟨nofun, fun _ => ⟨rfl, rfl⟩⟩

/-- The effect of a write, given its effect where it completes. -/
theorem StepEffect.of_send {s u t : State} {k : MessageKind} {items : List Item} {done : State → State}
    (wire : u.wire = s.wire) (session : u.session = s.session) (display : u.display = s.display)
    (completed : ∀ (v : State) (bytes : List Byte), s.session ≠ .failed → v.wire = s.wire ++ [⟨k, bytes, .completes⟩] →
      v.session = s.session → v.display = s.display → v.current = u.current → StepEffect s (done v))
    (h : u.send k items done = .next t) : StepEffect s t := by
  obtain ⟨⟨live, -, -⟩, hfate⟩ := State.send_next h
  rw [session] at live
  obtain ⟨-, rfl⟩ | ⟨-, rfl⟩ | ⟨-, rfl⟩ := hfate
  · exact completed _ _ live (by rw [State.written_wire, State.presentAll_wire, wire]) (by simpa) (by simpa) (by simp)
  · exact .failed live k _ (by rw [State.writeFailed_wire, State.presentAll_wire, wire]) rfl (by simpa) rfl
  · exact .hung live k _ (by rw [State.writeHung_wire, State.presentAll_wire, wire]) (by simpa) (by simpa)

/-- The effect of one row. -/
theorem StepEffect.of_writeRow {s u t : State} {px : List Rgb} {rest : List (List Rgb)} (hu : Fetched s u)
    (h : u.writeRow px rest = .next t) : StepEffect s t := by
  obtain ⟨hwire, hsession, hdisplay, -⟩ := hu.fields
  refine StepEffect.of_send hwire hsession hdisplay (fun v bytes live w sn d _ => ?_) h
  exact .written live .row bytes nofun (by simpa) (by simpa) (by simpa)

/-- The effect of one instruction; `issued` is asked for only where it writes a message. -/
theorem StepEffect.of_exec {s u t : State} {i : Instr} (hu : Fetched s u)
    (issued : ∀ k, u.messageOf i = some k → Issued s u)
    (h : exec i u = .next t) : StepEffect s t := by
  obtain ⟨hwire, hsession, hdisplay, -, -, -, -, -, htransport, -⟩ := hu.fields
  obtain ⟨q, rfl⟩ | ⟨call, rest, -, -, rfl⟩ | ⟨live, -, -, rfl⟩ | ⟨k, v, items, done, hk, -, hv, hdone, hsend⟩ :=
    exec_next h
  · exact .silent hwire hsession hdisplay htransport
  · exact .silent hwire hsession hdisplay htransport
  · exact .notOpened (hsession ▸ live) hwire rfl hdisplay rfl
  · obtain ⟨vwire, vsession, vdisplay, -, -, -, -, -, vcurrent, -⟩ := hv.fields
    refine StepEffect.of_send (vwire.trans hwire) (vsession.trans hsession) (vdisplay.trans hdisplay)
      (fun x bytes live xw xs xd xc => ?_) hsend
    have xwire : (done x).wire = s.wire ++ [⟨k, bytes, .completes⟩] := (hdone.fields x).1.trans xw
    obtain ⟨hother, hplain⟩ | ⟨o, reverse, rfl, rfl⟩ := hdone.session_display
    · exact .written live k bytes hother xwire ((hplain x).1.trans xs) ((hplain x).2.trans xd)
    · refine .oriented live o reverse bytes xwire ?_ rfl ?_
      · rw [← xs]; rfl
      · exact (issued _ hk).congr (xc.trans vcurrent)

/-- The effect of every step. -/
theorem step_effect {s t : State} (h : step s = .next t) : StepEffect s t := by
  obtain ⟨u, hu, rfl | ⟨px, rest, -, -, hrow⟩ | ⟨w, i, -, -, hexec, hissued⟩⟩ := step_next h
  · obtain ⟨hwire, hsession, hdisplay, -, -, -, -, -, htransport, -⟩ := hu.fields
    exact .silent hwire hsession hdisplay htransport
  · exact .of_writeRow hu hrow
  · refine .of_exec hu (fun k hk => ?_) hexec
    obtain ho | hw | hfirst := hissued
    · rw [(State.admits_of_not_ofHostOperation ho).1] at hk; cases hk
    · exact .inl ⟨w, hw⟩
    · exact .inr hfirst

/-! ### The session and DisplayState -/

/-- On a Failed session every device command but DisplayBitmap is stuck. -/
theorem exec_of_session_failed {s : State} {i : Instr} {k : MessageKind} (hf : s.session = .failed)
    (hr : s.raster = []) (hk : s.messageOf i = some k) (hi : ∀ x y x2 y2, i ≠ .displayBitmap x y x2 y2) :
    exec i s = .fault .sessionFailed := by
  have hb : s.writeBlocked = some .sessionFailed := State.writeBlocked_failed hf
  have hsend (k' items done) : s.sendCommand k' items done = .fault .sessionFailed := by
    rw [State.sendCommand_eq hr, State.send_blocked hb]
  cases i with
  | packCmd | packU16 | packColor | reservedOp11 | setBrightness => cases hk
  | reset => simp only [exec, execReset, hb]
  | clear | toBlack | screenOff | screenOn | geometryReset => exact hsend _ _ _
  | setOrientation p1 p2 p3 p4 after =>
    cases ho : orientationOperand p1 p2 p3 p4 after with
    | none => simp [State.messageOf, ho] at hk
    | some or => rw [exec_setOrientation_operand ho]; exact hsend _ _ _
  | displayBitmap x y x2 y2 => exact absurd rfl (hi x y x2 y2)

/-- Settles O33: of the effects of a step, only the silent one begins in a Failed session. -/
theorem failedSessionStuck : Obligations.FailedSessionStuck := by
  refine ⟨fun s t hf h => ?_, fun s i k => exec_of_session_failed⟩
  cases step_effect h with
  | silent wire session display transport => exact ⟨session.trans hf, wire, display, transport⟩
  | notOpened live | failed live | hung live | written live | oriented live => exact absurd hf live

theorem displayFor_eq (o : Orientation) (reverse : Bool) :
    displayFor o reverse =
      if o = .landscape then { width := 480, height := 320, orientation := o, reverse := reverse }
      else { width := 320, height := 480, orientation := o, reverse := reverse } := by
  cases o <;> rfl

/-- Settles O41: of the effects of a step, only that of a completed SetOrientation moves DisplayState. -/
theorem displayChangedOnlyBySetOrientation : Obligations.DisplayChangedOnlyBySetOrientation := by
  intro s t h hne
  cases step_effect h with
  | oriented live o reverse bytes wire session display =>
    exact ⟨o, reverse, bytes, wire, display.trans (congrArg some (displayFor_eq o reverse))⟩
  | silent _ _ display | notOpened _ _ _ display | failed _ _ _ _ _ display | hung _ _ _ _ _ display
  | written _ _ _ _ _ _ display => exact absurd display hne

/-- Before init's third message the stream stands inside init, so no other operation is started there. -/
theorem State.midOperation_of_bootGeometry {s : State} (hs : s.session = .uninitialized)
    (hk : s.kinds = [.reset, .geometryReset]) : s.midOperation = true := by
  have hp : s.phase = .next .bootGeometry := by rw [State.phase, hk]; rfl
  simp [State.midOperation, hs, hp, Phase.inside]

/-- Settles O42: a write or an opening that fails, and init's last SetOrientation, are the only effects of a step that
move the session; and the stream that last one ends keeps any operation but init from issuing it. -/
theorem sessionTransitions : Obligations.SessionTransitions := by
  intro s t h hne
  cases step_effect h with
  | silent _ session | hung _ _ _ _ session | written _ _ _ _ _ session => exact absurd session hne
  | notOpened live _ session _ result | failed live _ _ _ session _ result => exact .inr ⟨live, session, result⟩
  | oriented live o reverse bytes wire session display issued =>
    split at session
    case isFalse => exact absurd session hne
    case isTrue hinit =>
    obtain ⟨hs, hw⟩ := hinit
    have hkinds : t.kinds = initKinds := by simpa [State.initWritten] using hw
    have hadd : s.kinds ++ [.setOrientation o reverse] =
        [.reset, .geometryReset] ++ [.setOrientation .portrait false] :=
      (State.kinds_add wire).symm.trans hkinds
    obtain ⟨hbefore, hlast⟩ := List.append_inj' hadd rfl
    obtain ⟨rfl, rfl⟩ : o = .portrait ∧ reverse = false := by simpa using hlast
    refine .inl ⟨hs, session, ?_, hkinds, display⟩
    obtain hnext | ⟨-, hmid⟩ := issued
    · exact hnext
    · rw [State.midOperation_of_bootGeometry hs hbefore] at hmid; cases hmid

/-! ### Which instruction a step executes -/

/-- What the wire lets stand depends on these fields alone. -/
theorem State.admits_congr {s t : State} (hwire : t.wire = s.wire) (hsession : t.session = s.session)
    (hhung : t.hung = s.hung) (hbitmaps : t.bitmaps = s.bitmaps) (i : Instr) : t.admits i = s.admits i := by
  have hmessage : t.messageOf i = s.messageOf i := by cases i <;> simp [State.messageOf, hbitmaps]
  simp only [State.admits, State.accepts, State.writeBlocked, hmessage, hsession, hhung, State.phase_eq_of_wire hwire]

/-- So a fetch does not change it. -/
theorem Fetched.admits {s u : State} (h : Fetched s u) (i : Instr) : u.admits i = s.admits i := by
  obtain ⟨hwire, hsession, -, hhung, -, -, -, -, -, hbitmaps, -⟩ := h.fields
  exact State.admits_congr hwire hsession hhung hbitmaps i

theorem State.ownerAction_current {s : State} {w : Word} {ws : List Word} (hh : s.hung = false) (hr : s.raster = [])
    (hc : s.current = w :: ws) : s.ownerAction = (.word w, { s with current := ws }) := by
  simp [State.ownerAction, hh, hr, hc]

theorem State.ownerAction_program {s : State} {w : Word} {ws : List Word} {ops : List (List Word)}
    (hh : s.hung = false) (hr : s.raster = []) (hc : s.current = []) (hm : s.midOperation = false)
    (hp : s.program = (w :: ws) :: ops) :
    s.ownerAction = (.word w, { s with current := ws, program := ops }) := by
  simp [State.ownerAction, State.startOperation, hh, hr, hc, hm, hp]

theorem State.ownerAction_inside {s : State} (hh : s.hung = false) (hr : s.raster = []) (hc : s.current = [])
    (hm : s.midOperation = true) : s.ownerAction = s.interruptingWord := by
  simp [State.ownerAction, hh, hr, hc, hm]

theorem State.interruptingWord_cons {s : State} {w : Word} {ws : List Word} {ops : List (List Word)}
    (hp : s.program = (w :: ws) :: ops) :
    s.interruptingWord = (.interrupt w, { s with program := if ws = [] then ops else ws :: ops }) := by
  cases ws <;> simp [State.interruptingWord, hp]

theorem State.fetch_caller_busy {s : State} (ht : s.turns.head? = some .caller) (hb : s.busy = true) :
    s.fetch = ({ s with turns := s.turns.tail } : State).interruptingWord := by
  obtain ⟨turns, hturns⟩ := List.head?_eq_some_iff.mp ht
  simp [State.fetch, hturns, hb]

theorem State.fetch_caller_idle {s : State} (ht : s.turns.head? = some .caller) (hb : s.busy = false) :
    s.fetch = ({ s with turns := s.turns.tail } : State).ownerAction := by
  obtain ⟨turns, hturns⟩ := List.head?_eq_some_iff.mp ht
  simp [State.fetch, hturns, hb]

/-- A fetched word that the wire lets stand is executed. -/
theorem step_of_fetch_word {s u : State} {w : Word} {i : Instr} (hf : s.fetch = (.word w, u)) (hu : Fetched s u)
    (hd : decode w = .ok i) (ha : s.admits i = .next ()) : step s = exec i u := by
  unfold step
  rw [hf]
  exact runWord_of_admits hd ((hu.admits i).trans ha)

/-- The next word of the operation in progress. -/
theorem step_current {s : State} {w : Word} {ws : List Word} {i : Instr} (ht : s.turns.head? ≠ some .caller)
    (hh : s.hung = false) (hr : s.raster = []) (hd : decode w = .ok i) (ha : s.admits i = .next ())
    (hc : s.current = w :: ws) : step s = exec i { s with current := ws, turns := s.turns.tail } :=
  step_of_fetch_word ((State.fetch_owner ht).trans (State.ownerAction_current hh hr hc)) rfl hd ha

/-- The first word of the next operation. -/
theorem step_program {s : State} {w : Word} {ws : List Word} {ops : List (List Word)} {i : Instr}
    (ht : s.turns.head? ≠ some .caller) (hh : s.hung = false) (hr : s.raster = []) (hd : decode w = .ok i)
    (ha : s.admits i = .next ()) (hc : s.current = []) (hm : s.midOperation = false)
    (hp : s.program = (w :: ws) :: ops) :
    step s = exec i { s with current := ws, program := ops, turns := s.turns.tail } :=
  step_of_fetch_word ((State.fetch_owner ht).trans (State.ownerAction_program hh hr hc hm hp)) rfl hd ha

/-- Whoever's turn it is: a word of another operation while one is in progress. -/
theorem State.fetch_interrupt {s : State} {w : Word} {ws : List Word} {ops : List (List Word)}
    (hp : s.program = (w :: ws) :: ops)
    (h : (s.turns.head? = some .caller ∧ s.busy = true) ∨
      (s.turns.head? ≠ some .caller ∧ s.hung = false ∧ s.raster = [] ∧ s.current = [] ∧ s.midOperation = true)) :
    s.fetch = (.interrupt w, { s with program := if ws = [] then ops else ws :: ops, turns := s.turns.tail }) := by
  have hfetch : s.fetch = ({ s with turns := s.turns.tail } : State).interruptingWord := by
    obtain ⟨ht, hb⟩ | ⟨ht, hh, hr, hc, hm⟩ := h
    · exact State.fetch_caller_busy ht hb
    · exact (State.fetch_owner ht).trans (State.ownerAction_inside hh hr hc hm)
  exact hfetch.trans (State.interruptingWord_cons hp)

theorem runInterrupting_ofHostOperation {w : Word} {i : Instr} (hd : decode w = .ok i) (ho : ofHostOperation i = true)
    (s : State) : runInterrupting w s = .fault .operationInFlight := by
  simp [runInterrupting, hd, ho]

theorem runInterrupting_request {w : Word} {i : Instr} (hd : decode w = .ok i) (ho : ofHostOperation i = false)
    (s : State) : runInterrupting w s = exec i s := by
  simp [runInterrupting, hd, ho]

/-- A caller's turn while nothing is in progress is an owner's turn. -/
theorem step_caller_idle {s : State} (ht : s.turns.head? = some .caller) (hb : s.busy = false) :
    step s = step { s with turns := .owner :: s.turns.tail } := by
  have howner : ({ s with turns := .owner :: s.turns.tail } : State).fetch = s.fetch :=
    (State.fetch_owner (by simp)).trans (State.fetch_caller_idle ht hb).symm
  simp only [step, howner]

/-- Settles O44: by what the fetch brings on each kind of turn. -/
theorem stepRunsDecodedInstruction : Obligations.StepRunsDecodedInstruction := by
  refine ⟨fun s w ws i ht hh hr hd ha => ⟨?_, fun ops hc hm hp => ?_⟩, fun s w ws ops i hd hp h => ?_,
    fun s => step_caller_idle⟩
  · exact step_current ht hh hr hd ha
  · exact step_program ht hh hr hd ha hc hm hp
  · have hstep : step s =
        runInterrupting w { s with program := if ws = [] then ops else ws :: ops, turns := s.turns.tail } := by
      unfold step
      rw [State.fetch_interrupt hp h]
    exact ⟨fun ho => hstep.trans (runInterrupting_ofHostOperation hd ho _),
      fun ho => hstep.trans (runInterrupting_request hd ho _)⟩

/-! ### Placing an instruction from outside -/

theorem decodeTableWord_eq_some {nbits w : Nat} {i : Instr} (h : decodeTableWord nbits w = some i) :
    ∃ word, tableWord nbits w = some word ∧ decode word = .ok i := by
  unfold decodeTableWord at h
  split at h
  · cases h
  · rename_i word hw
    split at h
    · rename_i hd; cases h; exact ⟨word, hw, hd⟩
    · cases h

/-- An instruction that writes no message needs nothing of the wire. -/
theorem State.admits_of_no_message {s : State} {i : Instr} (h : s.messageOf i = none) : s.admits i = .next () := by
  simp [State.admits, h]

/-- A booted stream takes every message but Reset and SetOrientation. -/
theorem State.idle_next_messageOf {s : State} {i : Instr} {k : MessageKind} (hk : s.messageOf i = some k)
    (h1 : i ≠ .reset) (h2 : ∀ p1 p2 p3 p4 after, i ≠ .setOrientation p1 p2 p3 p4 after) :
    ∃ q, Phase.idle.next k = .next q := by
  cases i with
  | packCmd | packU16 | packColor | reservedOp11 | setBrightness => cases hk
  | reset => exact absurd rfl h1
  | setOrientation => exact absurd rfl (h2 _ _ _ _ _)
  | clear | toBlack | screenOff | screenOn | geometryReset => cases hk; exact ⟨_, rfl⟩
  | displayBitmap =>
    simp only [State.messageOf] at hk
    split at hk
    · cases hk
    · split at hk
      · cases hk; exact ⟨_, rfl⟩
      · cases hk

/-- Placing brings the stream to where the instruction may stand. -/
theorem State.placedFor_admits {s : State} (hh : s.hung = false) (i : Instr) :
    (s.placedFor i).admits i = .next () := by
  unfold State.placedFor
  split
  · assumption
  · split
    · exact State.admits_of_phase (k := .reset) rfl nofun hh (State.phase_of_wire_nil rfl) rfl
    · rename_i p1 p2 p3 p4 after _
      cases ho : orientationOperand p1 p2 p3 p4 after with
      | none => exact State.admits_of_no_message (by simp [State.messageOf, ho])
      | some or =>
        exact State.admits_of_phase (k := .setOrientation or.1 or.2) (p := .geometrySent)
          (by simp [State.messageOf, ho]) nofun hh rfl rfl
    · rename_i h1 h2
      cases hk : s.booted.messageOf i with
      | none => exact State.admits_of_no_message hk
      | some k =>
        obtain ⟨q, hq⟩ := State.idle_next_messageOf hk h1 h2
        exact State.admits_of_phase (p := .idle) hk nofun hh rfl hq

/-- The fields that say what is issued next. -/
def SameQueue (s t : State) : Prop :=
  t.current = s.current ∧ t.raster = s.raster ∧ t.hung = s.hung ∧ t.turns = s.turns

theorem State.placedFor_sameQueue (s : State) (i : Instr) : SameQueue s (s.placedFor i) := by
  unfold State.placedFor
  split
  · exact ⟨rfl, rfl, rfl, rfl⟩
  · split <;> exact ⟨rfl, rfl, rfl, rfl⟩

theorem State.imageFor_sameQueue (s : State) (i : Instr) : SameQueue s (s.imageFor i) := by
  unfold State.imageFor
  split
  · split <;> exact ⟨rfl, rfl, rfl, rfl⟩
  · exact ⟨rfl, rfl, rfl, rfl⟩

/-- A placed word is the owner's next, and the wire lets it stand. -/
theorem State.placed_spec (s : State) {w : Word} {i : Instr} (hd : decode w = .ok i) :
    (s.placed w).current = w :: s.current ∧ (s.placed w).raster = [] ∧ (s.placed w).hung = false ∧
    (s.placed w).turns = .owner :: s.turns ∧ (s.placed w).admits i = .next () := by
  simp only [State.placed, hd]
  generalize ht :
    ({ s with current := w :: s.current, raster := [], hung := false, turns := .owner :: s.turns } : State) = t
  obtain ⟨ic, ir, ih, it⟩ := State.imageFor_sameQueue t i
  obtain ⟨pc, pr, ph, pt⟩ := State.placedFor_sameQueue (t.imageFor i) i
  have hh : (t.imageFor i).hung = false := by rw [ih, ← ht]
  exact ⟨by rw [pc, ic, ← ht], by rw [pr, ir, ← ht], ph.trans hh, by rw [pt, it, ← ht], State.placedFor_admits hh i⟩

/-- Settles O45: a placed word is the next of the operation in progress, on the owner's turn. -/
theorem placedWordRunsNext : Obligations.PlacedWordRunsNext := by
  intro s nbits w i h
  obtain ⟨word, hw, hd⟩ := decodeTableWord_eq_some h
  have hplaced : s.withFetchWord nbits w = s.placed word := by simp only [State.withFetchWord, hw]
  obtain ⟨hc, hr, hh, ht, ha⟩ := s.placed_spec hd
  rw [hplaced, step_current (by simp [ht]) hh hr hd ha hc, ht, List.tail_cons]

end Sys2Proof.Machine
end

section
/-! The obligations of 20_memory.md: the wire only grows, what a failing write leaves behind, and a ColorWord's fields
and wire orders. -/

namespace Sys2Proof.Machine

/-! ### A ColorWord's fields and its wire orders -/

/-- The three fields in one word, red in the most significant bits (20_memory.md R44). -/
theorem toNat_colorFields (red : BitVec 5) (green : BitVec 6) (blue : BitVec 5) :
    (red ++ green ++ blue).toNat = (red.toNat <<< 11) ||| (green.toNat <<< 5) ||| blue.toNat := by
  rw [BitVec.toNat_append, BitVec.toNat_append, Nat.shiftLeft_or_distrib, ← Nat.shiftLeft_add]

theorem extractLsb'_colorFields (red : BitVec 5) (green : BitVec 6) (blue : BitVec 5) :
    (red ++ green ++ blue).extractLsb' 11 5 = red ∧ (red ++ green ++ blue).extractLsb' 5 6 = green ∧
    (red ++ green ++ blue).extractLsb' 0 5 = blue := by
  simp (disch := omega) only [BitVec.extractLsb'_append_eq_of_le, BitVec.extractLsb'_append_eq_of_add_le,
    BitVec.extractLsb'_eq_self, Nat.reduceSub, and_self]

/-- A scaled channel fits a field that its maximum fits (42_color_converter.md R104). -/
theorem toNat_ofNat_scale {w max : Nat} (h : max < 2 ^ w) (c : Byte) :
    (BitVec.ofNat w (scale c max)).toNat = scale c max := by
  have hle : scale c max ≤ max := Nat.div_le_of_le_mul (Nat.mul_le_mul_right max (by omega))
  rw [BitVec.toNat_ofNat, Nat.mod_eq_of_lt (by omega)]

theorem packColorWord_fields (r g b : Byte) :
    ((packColorWord r g b).extractLsb' 11 5).toNat = scale r 31 ∧
    ((packColorWord r g b).extractLsb' 5 6).toNat = scale g 63 ∧
    ((packColorWord r g b).extractLsb' 0 5).toNat = scale b 31 := by
  unfold packColorWord
  obtain ⟨hred, hgreen, hblue⟩ := extractLsb'_colorFields (BitVec.ofNat 5 (scale r Config.redBlueMax))
    (BitVec.ofNat 6 (scale g Config.greenMax)) (BitVec.ofNat 5 (scale b Config.redBlueMax))
  rw [hred, hgreen, hblue]
  exact ⟨toNat_ofNat_scale (by decide) r, toNat_ofNat_scale (by decide) g, toNat_ofNat_scale (by decide) b⟩

theorem packColorWord_toNat (r g b : Byte) :
    (packColorWord r g b).toNat =
      (((packColorWord r g b).extractLsb' 11 5).toNat <<< 11) |||
        (((packColorWord r g b).extractLsb' 5 6).toNat <<< 5) ||| ((packColorWord r g b).extractLsb' 0 5).toNat := by
  unfold packColorWord
  generalize BitVec.ofNat 5 (scale r Config.redBlueMax) = red, BitVec.ofNat 6 (scale g Config.greenMax) = green,
    BitVec.ofNat 5 (scale b Config.redBlueMax) = blue
  obtain ⟨hred, hgreen, hblue⟩ := extractLsb'_colorFields red green blue
  rw [hred, hgreen, hblue, toNat_colorFields]

/-- Settles O51: the port of the request just presented is the word of the three scaled channels. -/
theorem pixelWireOrders : Obligations.PixelWireOrders := by
  intro r g b s
  obtain ⟨hred, hgreen, hblue⟩ := packColorWord_fields r g b
  exact ⟨_, _, exec_packColor r g b s, State.color_present_color s r g b, packColorWord_toNat r g b, hred, hgreen,
    hblue, rfl, rfl⟩

/-! ### The wire only grows -/

/-- Settles O40: every effect of a step leaves the wire alone or adds the one message it is about. -/
theorem wireOnlyGrows : Obligations.WireOnlyGrows := by
  intro s t h
  cases step_effect h with
  | silent wire | notOpened _ wire => exact ⟨[], by rw [wire, List.append_nil], Nat.zero_le 1⟩
  | failed _ _ _ wire | hung _ _ _ wire | written _ _ _ _ wire | oriented _ _ _ _ wire => exact ⟨[_], wire, le_rfl⟩

/-! ### One message, whatever becomes of its write -/

/-- The instruction is the write of one message, and the same one whatever the Transport does with it. -/
def WritesMessage (i : Instr) (s : State) : Prop :=
  ∃ k u items done, Prepared s u ∧ Finishes k done ∧
    ∀ fates, exec i { s with fates := fates } = ({ u with fates := fates } : State).send k items done

/-- An answered command that goes through `State.sendCommand` finds no bitmap in progress, so it is a plain write. -/
theorem WritesMessage.of_sendCommand {s u t : State} {i : Instr} {k : MessageKind} {items : List Item}
    {done : State → State} {fates : List WriteFate} (hu : Prepared s u) (hdone : Finishes k done)
    (heq : ∀ fates, exec i { s with fates := fates } = ({ u with fates := fates } : State).sendCommand k items done)
    (h : exec i { s with fates := fates } = .next t) : WritesMessage i s := by
  obtain ⟨hr, -⟩ := State.sendCommand_next ((heq fates).symm.trans h)
  exact ⟨k, u, items, done, hu, hdone, fun fates => (heq fates).trans (State.sendCommand_eq hr)⟩

/-- An instruction that has no message leaves the wire alone. -/
theorem exec_wire_of_no_message {s t : State} {i : Instr} (hk : s.messageOf i = none) (h : exec i s = .next t) :
    t.wire = s.wire := by
  obtain ⟨q, rfl⟩ | ⟨call, rest, -, -, rfl⟩ | ⟨-, -, -, rfl⟩ | ⟨k, -, -, -, hk', -⟩ := exec_next h
  · rfl
  · rfl
  · rfl
  · rw [hk] at hk'; cases hk'

theorem Prepared.refl (s : State) : Prepared s s := ⟨rfl, .inl rfl⟩

theorem Prepared.opened (s : State) : Prepared s s.opened := by
  refine ⟨?_, .inr (State.opened_transport s)⟩
  unfold State.opened
  split <;> rfl

theorem State.opened_with_fates (s : State) (fates : List WriteFate) :
    ({ s with fates := fates } : State).opened = { s.opened with fates := fates } := by
  cases ht : s.transport <;> simp only [State.opened, ht]

theorem exec_reset_blocked {s : State} {f : Fault} (hb : s.writeBlocked = some f) : exec .reset s = .fault f := by
  simp only [exec, execReset, hb]

/-- A Reset that nothing blocks: a Transport that does not open, or its message's write. -/
theorem exec_reset_not_blocked {s : State} (hb : s.writeBlocked = none) :
    exec .reset s =
      if s.transport = none ∧ s.openFails = true then .next s.openFailed
      else s.opened.sendCommand .reset (plainFrame 0xFF#8) State.continueOperation := by
  simp only [exec, execReset, hb]

/-- A DisplayBitmap of a decoded image: the two images it refuses, and its header's write. -/
theorem exec_displayBitmap_image {s : State} {call : BitmapCall} {rest : List BitmapCall} {img : Image}
    (hb : s.bitmaps = call :: rest) (hd : call.decoded = .image img) (x y x2 y2 : BitVec 10) :
    exec (.displayBitmap x y x2 y2) s =
      if img.width = 0 ∨ img.rows = [] then .refused .zeroSizeImage
      else if img.fills call.x call.y x y x2 y2 = true then
        ({ s with bitmaps := rest } : State).sendCommand (.bitmapHeader img.height)
          (headerFor call.x call.y img.width img.height) (State.rasterDue img.rows)
      else .refused .notTheRectangle := by
  simp only [exec, execDisplayBitmap, hb, hd]

theorem writesMessage_reset {s t : State} {fates : List WriteFate}
    (h : exec .reset { s with fates := fates } = .next t) (hw : t.wire ≠ s.wire) : WritesMessage .reset s := by
  cases hb : s.writeBlocked with
  | some f => rw [exec_reset_blocked (s := { s with fates := fates }) hb] at h; cases h
  | none =>
    have heq (fates : List WriteFate) := exec_reset_not_blocked (s := { s with fates := fates }) hb
    by_cases ho : s.transport = none ∧ s.openFails = true
    · rw [heq, if_pos ho] at h
      cases h
      exact absurd rfl hw
    · exact .of_sendCommand (Prepared.opened s) .reset
        (fun fates => by rw [heq, if_neg ho, State.opened_with_fates]) h

theorem writesMessage_setOrientation {p1 p2 p3 p4 : BitVec 10} {after : Byte} {s t : State} {fates : List WriteFate}
    (h : exec (.setOrientation p1 p2 p3 p4 after) { s with fates := fates } = .next t) (hw : t.wire ≠ s.wire) :
    WritesMessage (.setOrientation p1 p2 p3 p4 after) s := by
  cases ho : orientationOperand p1 p2 p3 p4 after with
  | none => exact absurd (exec_wire_of_no_message (by simp [State.messageOf, ho]) h) hw
  | some or =>
    exact .of_sendCommand (Prepared.refl s) (.setOrientation or.1 or.2) (fun _ => exec_setOrientation_operand ho _) h

theorem writesMessage_displayBitmap {x y x2 y2 : BitVec 10} {s t : State} {fates : List WriteFate}
    (h : exec (.displayBitmap x y x2 y2) { s with fates := fates } = .next t) (hw : t.wire ≠ s.wire) :
    WritesMessage (.displayBitmap x y x2 y2) s := by
  have hsome : s.messageOf (.displayBitmap x y x2 y2) ≠ none := fun hk =>
    hw (exec_wire_of_no_message (s := { s with fates := fates }) (i := .displayBitmap x y x2 y2) hk h)
  cases hb : s.bitmaps with
  | nil => simp [State.messageOf, hb] at hsome
  | cons call rest =>
    cases hd : call.decoded with
    | failed => simp [State.messageOf, hb, hd] at hsome
    | image img =>
      have heq (fates : List WriteFate) :=
        exec_displayBitmap_image (s := { s with fates := fates }) hb hd x y x2 y2
      by_cases hz : img.width = 0 ∨ img.rows = []
      · rw [heq, if_pos hz] at h; cases h
      · by_cases hfills : img.fills call.x call.y x y x2 y2 = true
        · exact .of_sendCommand (u := { s with bitmaps := rest }) ⟨rfl, .inl rfl⟩
            (.header img.rows fun hrows => hz (.inr hrows))
            (fun fates => by rw [heq, if_neg hz, if_pos hfills]; rfl) h
        · rw [heq, if_neg hz, if_neg hfills] at h; cases h

/-- An instruction that puts something on the wire is the write of one message. -/
theorem writesMessage_of_wire_ne {s t : State} {i : Instr} {fates : List WriteFate}
    (h : exec i { s with fates := fates } = .next t) (hw : t.wire ≠ s.wire) : WritesMessage i s := by
  cases i with
  | packCmd | packU16 | packColor | reservedOp11 | setBrightness => exact absurd (exec_wire_of_no_message rfl h) hw
  | reset => exact writesMessage_reset h hw
  | clear => exact .of_sendCommand (Prepared.refl s) .clear (fun _ => rfl) h
  | toBlack => exact .of_sendCommand (Prepared.refl s) .toBlack (fun _ => rfl) h
  | screenOff => exact .of_sendCommand (Prepared.refl s) .screenOff (fun _ => rfl) h
  | screenOn => exact .of_sendCommand (Prepared.refl s) .screenOn (fun _ => rfl) h
  | geometryReset => exact .of_sendCommand (Prepared.refl s) .geometryReset (fun _ => rfl) h
  | setOrientation => exact writesMessage_setOrientation h hw
  | displayBitmap => exact writesMessage_displayBitmap h hw

/-- Where a write completes, it finds the host free to write and its message whole on the wire. -/
theorem State.send_next_completes {u t : State} {k : MessageKind} {items : List Item} {done : State → State}
    (hfate : u.nextFate = .completes) (h : u.send k items done = .next t) :
    (u.session ≠ .failed ∧ u.hung = false ∧ u.transport ≠ none) ∧
    t = done ((u.presentAll (messageRequests items)).written k (messageBytes Config.pixelWireOrder items)) := by
  obtain ⟨hfree, ⟨-, ht⟩ | ⟨hf, -⟩ | ⟨hf, -⟩⟩ := State.send_next h
  · exact ⟨hfree, ht⟩
  · rw [hfate] at hf; cases hf
  · rw [hfate] at hf; cases hf

/-- What a completed write leaves, its operation finished or going on. -/
theorem Finishes.written_fields {k : MessageKind} {done : State → State} (hdone : Finishes k done) (v : State)
    (qs : List Request) (bytes : List Byte) :
    (done ((v.presentAll qs).written k bytes)).wire = v.wire ++ [⟨k, bytes, .completes⟩] ∧
    (done ((v.presentAll qs).written k bytes)).responses = v.responses ++ qs.map fce ∧
    (done ((v.presentAll qs).written k bytes)).ports = qs.foldl InPorts.drive v.ports ∧
    (done ((v.presentAll qs).written k bytes)).bitmaps = v.bitmaps ∧
    (done ((v.presentAll qs).written k bytes)).transport = v.transport := by
  obtain ⟨wire, -, transport, -, bitmaps, responses, ports, -⟩ := hdone.fields ((v.presentAll qs).written k bytes)
  rw [wire, transport, bitmaps, responses, ports]
  simp [State.presentAll_responses, State.presentAll_ports]

/-- Settles O31: the instruction is the same message's write in both, so what the failing one leaves is read off
`State.writeFailed`. -/
theorem failedWriteStopsOperation : Obligations.FailedWriteStopsOperation := by
  intro s u i rest hs h hw
  obtain ⟨k, v, items, done, hv, hdone, heq⟩ := writesMessage_of_wire_ne h hw
  obtain ⟨vwire, -, vdisplay, vhung, -, -, -, -, -, vprogram, -⟩ := hv.fields
  obtain ⟨⟨hsession, hfree, htransport⟩, hu⟩ := State.send_next_completes rfl ((heq _).symm.trans h)
  have hfails : exec i s = ({ v with fates := .fails :: rest } : State).send k items done := by
    rw [← hs]; exact heq s.fates
  obtain ⟨uwire, uresponses, uports, ubitmaps, utransport⟩ := hu ▸ hdone.written_fields
    { v with fates := .completes :: rest } (messageRequests items) (messageBytes Config.pixelWireOrder items)
  refine ⟨_, k, messageBytes Config.pixelWireOrder items, Config.failedPrefix v.draws, by rw [uwire, vwire],
    hfails.trans (State.send_fails hsession hfree htransport rfl), ?_⟩
  simp [vwire, vdisplay, vhung, vprogram, uresponses, uports, ubitmaps, utransport, State.presentAll_responses,
    State.presentAll_ports]

end Sys2Proof.Machine
end

section
/-! The obligations of 30_encoding.md: what the decoder reads from a request word and from a command word, that it and
the encoder agree, which words are refused, and the assembler. -/

namespace Sys2Proof.Machine

/-! ### Request words -/

theorem decode_request_cmd {q : RequestWord} (h : q.extractLsb' 72 2 = 0#2) :
    decode (.request q) = .ok (.packCmd (q.extractLsb' 64 8) (q.extractLsb' 48 16) (q.extractLsb' 32 16)
      (q.extractLsb' 16 16) (q.extractLsb' 0 16)) := by
  simp [decode, decodeRequest, RequestWord.op, h]

theorem decode_request_u16 {q : RequestWord} (h : q.extractLsb' 72 2 = 1#2) :
    decode (.request q) = .ok (.packU16 (q.extractLsb' 0 16)) := by
  simp [decode, decodeRequest, RequestWord.op, h]

theorem decode_request_color {q : RequestWord} (h : q.extractLsb' 72 2 = 2#2) :
    decode (.request q) = .ok (.packColor (q.extractLsb' 16 8) (q.extractLsb' 8 8) (q.extractLsb' 0 8)) := by
  simp [decode, decodeRequest, RequestWord.op, h]

theorem decode_request_reserved {q : RequestWord} (h : q.extractLsb' 72 2 = 3#2) :
    decode (.request q) = .ok .reservedOp11 := by
  simp [decode, decodeRequest, RequestWord.op, h]

theorem exec_reservedOp11 (s : State) : exec .reservedOp11 s = .refused .reservedOperation := rfl

/-- A word of an instruction that no host operation has runs whatever the wire (70_reset_and_hazards.md R174). -/
theorem runWord_of_not_ofHostOperation {w : Word} {i : Instr} (hd : decode w = .ok i) (ho : ofHostOperation i = false)
    (s : State) : runWord w s = exec i s :=
  runWord_of_admits hd (State.admits_of_not_ofHostOperation ho).2

theorem runWord_request_cmd {q : RequestWord} (h : q.extractLsb' 72 2 = 0#2) (s : State) :
    runWord (.request q) s = .next (s.present (.cmd (q.extractLsb' 64 8) (q.extractLsb' 48 16) (q.extractLsb' 32 16)
      (q.extractLsb' 16 16) (q.extractLsb' 0 16))) :=
  (runWord_of_not_ofHostOperation (decode_request_cmd h) rfl s).trans (exec_packCmd ..)

theorem runWord_request_reserved {q : RequestWord} (h : q.extractLsb' 72 2 = 3#2) (s : State) :
    runWord (.request q) s = .refused .reservedOperation :=
  (runWord_of_not_ofHostOperation (decode_request_reserved h) rfl s).trans (exec_reservedOp11 s)

/-- A request word is its operation field and the fields of REQ_CMD below it (30_encoding.md R61). -/
theorem requestWord_eq_fields (q : RequestWord) :
    q.extractLsb' 72 2 ++ q.extractLsb' 64 8 ++ q.extractLsb' 48 16 ++ q.extractLsb' 32 16 ++ q.extractLsb' 16 16 ++
      q.extractLsb' 0 16 = q := by
  simp (disch := omega) only [BitVec.extractLsb'_append_extractLsb'_eq_extractLsb']
  exact BitVec.extractLsb'_eq_self

/-! ### Command words -/

/-- The slices of a frame put together from its fields (30_encoding.md R66). -/
theorem frameWord_fields (opcode : Byte) (p1 p2 p3 p4 : BitVec 10) :
    FrameWord.p1 (frameWord opcode p1 p2 p3 p4) = p1 ∧ FrameWord.p2 (frameWord opcode p1 p2 p3 p4) = p2 ∧
    FrameWord.p3 (frameWord opcode p1 p2 p3 p4) = p3 ∧ FrameWord.p4 (frameWord opcode p1 p2 p3 p4) = p4 := by
  simp (disch := omega) only [FrameWord.p1, FrameWord.p2, FrameWord.p3, FrameWord.p4, frameWord,
    BitVec.extractLsb'_append_eq_of_le, BitVec.extractLsb'_append_eq_of_add_le, BitVec.extractLsb'_eq_self,
    Nat.reduceSub, and_self]

/-- A frame is its opcode and its parameters. -/
theorem frameWord_of_fields (f : FrameWord) :
    frameWord (FrameWord.opcode f) (FrameWord.p1 f) (FrameWord.p2 f) (FrameWord.p3 f) (FrameWord.p4 f) = f := by
  simp (disch := omega) only [frameWord, FrameWord.opcode, FrameWord.p1, FrameWord.p2, FrameWord.p3, FrameWord.p4,
    BitVec.extractLsb'_append_extractLsb'_eq_extractLsb']
  exact BitVec.extractLsb'_eq_self

/-- A frame whose first five bytes are 0 is its opcode alone (30_encoding.md R70). -/
theorem frameWord_of_parameters_zero {f : FrameWord} (h : f.extractLsb' 8 40 = 0#40) :
    frameWord (FrameWord.opcode f) 0 0 0 0 = f :=
  calc frameWord (FrameWord.opcode f) 0 0 0 0
    _ = f.extractLsb' 8 40 ++ f.extractLsb' 0 8 := by rw [h]; rfl
    _ = f := BitVec.extractLsb'_append_extractLsb'

theorem decode_command_setOrientation {f : FrameWord} (h : FrameWord.opcode f = 0x79#8) (after : Byte) :
    decode (.command f after) =
      .ok (.setOrientation (FrameWord.p1 f) (FrameWord.p2 f) (FrameWord.p3 f) (FrameWord.p4 f) after) := by
  simp [decode, decodeCommand, h]

theorem decode_command_setBrightness {f : FrameWord} (h : FrameWord.opcode f = 0x6E#8) :
    decode (.command f 0) =
      .ok (.setBrightness (FrameWord.p1 f) (FrameWord.p2 f) (FrameWord.p3 f) (FrameWord.p4 f)) := by
  simp [decode, decodeCommand, decodeFrameOnly, h]

theorem decode_command_displayBitmap {f : FrameWord} (h : FrameWord.opcode f = 0xC5#8) :
    decode (.command f 0) =
      .ok (.displayBitmap (FrameWord.p1 f) (FrameWord.p2 f) (FrameWord.p3 f) (FrameWord.p4 f)) := by
  simp [decode, decodeCommand, decodeFrameOnly, h]

/-- The opcodes of 30_encoding.md R71. -/
theorem decode_command_unlisted {f : FrameWord}
    (h : FrameWord.opcode f ∉ [0x66#8, 0x67#8, 0x6C#8, 0x6D#8, 0x6E#8, 0x79#8, 0x7A#8, 0xC5#8, 0xFF#8])
    (after : Byte) : decode (.command f after) = .error (.unlistedOpcode (FrameWord.opcode f)) := by
  simp only [List.mem_cons, List.not_mem_nil, or_false, not_or] at h
  simp [decode, decodeCommand, decodeFrameOnly, h]

theorem runWord_of_undecodable {w : Word} {why : Reject} (h : decode w = .error why) (s : State) :
    runWord w s = .refused (.undecodable why) := by
  simp [runWord, h]

theorem exec_setBrightness (p1 p2 p3 p4 : BitVec 10) (s : State) :
    exec (.setBrightness p1 p2 p3 p4) s = .refused .brightnessLayout := rfl

/-! ### Decode and encode -/

/-- The operation field of an encoding is its row's. -/
theorem op_of_inRequestRow {op : BitVec 2} {i : Instr} {q : RequestWord} (h : Laws.TableRow.InRequestRow op i)
    (hq : encode i = .request q) : q.extractLsb' 72 2 = op := by
  obtain ⟨q', hq', hop⟩ := h
  cases hq.symm.trans hq'
  exact hop

theorem decode_encode_packCmd (opcode : Byte) (p1 p2 p3 p4 : BitVec 16) :
    decode (encode (.packCmd opcode p1 p2 p3 p4)) = .ok (.packCmd opcode p1 p2 p3 p4) := by
  rw [encode, decode_request_cmd (op_of_inRequestRow (Laws.TableRow.packCmd opcode p1 p2 p3 p4) rfl)]
  simp (disch := omega) only [BitVec.extractLsb'_append_eq_of_le, BitVec.extractLsb'_append_eq_of_add_le,
    BitVec.extractLsb'_eq_self, Nat.reduceSub]

theorem decode_encode_packU16 (n : BitVec 16) : decode (encode (.packU16 n)) = .ok (.packU16 n) := by
  rw [encode, decode_request_u16 (op_of_inRequestRow (Laws.TableRow.packU16 n) rfl), BitVec.extractLsb'_append_eq_right]

theorem decode_encode_packColor (r g b : Byte) : decode (encode (.packColor r g b)) = .ok (.packColor r g b) := by
  rw [encode, decode_request_color (op_of_inRequestRow (Laws.TableRow.packColor r g b) rfl)]
  simp (disch := omega) only [BitVec.extractLsb'_append_eq_of_le, BitVec.extractLsb'_append_eq_of_add_le,
    BitVec.extractLsb'_eq_self, Nat.reduceSub]

/-- The decoder asks nothing of the form, so this needs no well-formedness. -/
theorem decode_encode (i : Instr) : decode (encode i) = .ok i := by
  cases i with
  | packCmd opcode p1 p2 p3 p4 => exact decode_encode_packCmd opcode p1 p2 p3 p4
  | packU16 n => exact decode_encode_packU16 n
  | packColor r g b => exact decode_encode_packColor r g b
  | setBrightness p1 p2 p3 p4 =>
    obtain ⟨h1, h2, h3, h4⟩ := frameWord_fields 0x6E#8 p1 p2 p3 p4
    exact (decode_command_setBrightness (Laws.TableRow.opcode_frameWord ..)).trans (by rw [h1, h2, h3, h4])
  | setOrientation p1 p2 p3 p4 after =>
    obtain ⟨h1, h2, h3, h4⟩ := frameWord_fields 0x79#8 p1 p2 p3 p4
    exact (decode_command_setOrientation (Laws.TableRow.opcode_frameWord ..) after).trans (by rw [h1, h2, h3, h4])
  | displayBitmap x y x2 y2 =>
    obtain ⟨h1, h2, h3, h4⟩ := frameWord_fields 0xC5#8 x y x2 y2
    exact (decode_command_displayBitmap (Laws.TableRow.opcode_frameWord ..)).trans (by rw [h1, h2, h3, h4])
  | reservedOp11 | reset | clear | toBlack | screenOff | screenOn | geometryReset => rfl

/-- Settles O4: every encoding lies in its own row, and the decoder reads each field back from its place. -/
theorem decodeEncodeRoundTrip : Obligations.DecodeEncodeRoundTrip := fun i _ => decode_encode i

/-- A parameter-free row has one frame, so the instruction it decodes to gives that frame back. -/
theorem encode_of_decodeParameterFree {f : FrameWord} {opcode : Byte} {i j : Instr}
    (hrow : encode i = .command (frameWord opcode 0 0 0 0) 0#8) (ho : FrameWord.opcode f = opcode)
    (h : decodeParameterFree f i = .ok j) : encode j = .command f 0#8 := by
  unfold decodeParameterFree at h
  split at h
  · rename_i hzero
    cases h
    rw [hrow, ← ho, frameWord_of_parameters_zero hzero]
  · cases h

/-- One case for each row of 30_encoding.md R71 but SetOrientation's. -/
theorem encode_of_decodeFrameOnly {f : FrameWord} {i : Instr} (h : decodeFrameOnly f = .ok i) :
    encode i = .command f 0#8 := by
  unfold decodeFrameOnly at h
  split_ifs at h with hReset hClear hToBlack hScreenOff hScreenOn hGeometryReset hSetBrightness hDisplayBitmap
  · exact encode_of_decodeParameterFree rfl hReset h
  · exact encode_of_decodeParameterFree rfl hClear h
  · exact encode_of_decodeParameterFree rfl hToBlack h
  · exact encode_of_decodeParameterFree rfl hScreenOff h
  · exact encode_of_decodeParameterFree rfl hScreenOn h
  · exact encode_of_decodeParameterFree rfl hGeometryReset h
  · cases h
    rw [encode, ← hSetBrightness, frameWord_of_fields]
  · cases h
    rw [encode, ← hDisplayBitmap, frameWord_of_fields]

/-- Every command but SetOrientation has nothing after its frame. -/
theorem decodeFrameOnly_of_decode_command {f : FrameWord} {after : Byte} {i : Instr}
    (ho : FrameWord.opcode f ≠ 0x79#8) (h : decode (.command f after) = .ok i) :
    decodeFrameOnly f = .ok i ∧ after = 0#8 := by
  simp only [decode, decodeCommand, if_neg ho] at h
  cases hd : decodeFrameOnly f with
  | error e => simp [hd] at h
  | ok j =>
    simp only [hd] at h
    split at h
    · exact ⟨h, ‹after = 0#8›⟩
    · cases h

theorem encode_of_decode_command {f : FrameWord} {after : Byte} {i : Instr} (h : decode (.command f after) = .ok i) :
    encode i = .command f after := by
  by_cases ho : FrameWord.opcode f = 0x79#8
  · rw [decode_command_setOrientation ho] at h
    cases h
    rw [encode, ← ho, frameWord_of_fields]
  · obtain ⟨hframe, rfl⟩ := decodeFrameOnly_of_decode_command ho h
    exact encode_of_decodeFrameOnly hframe

/-- Settles O5: a word is its fields put together again, with nothing in it that they do not keep. -/
theorem encodeDecodeRoundTrip : Obligations.EncodeDecodeRoundTrip := by
  refine ⟨fun f after i => encode_of_decode_command, fun q h => ⟨_, decode_request_cmd h, ?_⟩⟩
  rw [encode, ← h, requestWord_eq_fields]

/-! ### What is ignored, and what is refused -/

/-- The low 10 bits of a 16-bit field of a word are 10 bits of the word. -/
theorem meaningfulBits_extractLsb' {w : Nat} (q : BitVec w) (start : Nat) :
    meaningfulBits (q.extractLsb' start 16) = q.extractLsb' start 10 :=
  extractLsb'_extractLsb' q start 16 0 10 (by decide)

/-- A channel of PACKCOLOR is a slice of the low 24 bits. -/
theorem channel_eq_of_low24_eq {q q' : RequestWord} (h : q.extractLsb' 0 24 = q'.extractLsb' 0 24) {start : Nat}
    (hs : start + 8 ≤ 24) : q.extractLsb' start 8 = q'.extractLsb' start 8 := by
  rw [← BitVec.extractLsb'_extractLsb'_of_le hs, h, BitVec.extractLsb'_extractLsb'_of_le hs]

/-- Settles O2: PACKU16 and PACKCOLOR read no other bit, and PACKCMD's frame is built of the low 10 bits of each
parameter. -/
theorem unusedRequestBitsIgnored : Obligations.UnusedRequestBitsIgnored := by
  refine ⟨fun q q' h h' hn => ?_, fun q q' h h' hlow => ?_, fun q q' s h h' hopcode h1 h2 h3 h4 => ?_⟩
  · rw [decode_request_u16 h, decode_request_u16 h', hn]
  · rw [decode_request_color h, decode_request_color h', channel_eq_of_low24_eq hlow (start := 16) (by decide),
      channel_eq_of_low24_eq hlow (start := 8) (by decide), channel_eq_of_low24_eq hlow (start := 0) (by decide)]
  · refine ⟨_, _, runWord_request_cmd h s, runWord_request_cmd h' s, ?_⟩
    simp only [State.present_responses, fce, packFrame, meaningfulBits_extractLsb', hopcode, h1, h2, h3, h4]

/-- Settles O6: an unlisted opcode is no row of the decoder's, SetBrightness has no layout, and PACKCMD puts its opcode
in byte5 as it is. -/
theorem unlistedOpcodesRefused : Obligations.UnlistedOpcodesRefused :=
  ⟨fun _ after s h => runWord_of_undecodable (decode_command_unlisted h after) s,
    fun _ s h => (runWord_of_not_ofHostOperation (decode_command_setBrightness h) rfl s).trans (exec_setBrightness ..),
    fun opcode p1 p2 p3 p4 s =>
      ⟨_, packFrame opcode p1 p2 p3 p4, exec_packCmd opcode p1 p2 p3 p4 s, State.present_responses .., rfl⟩⟩

/-- Settles O1: one decoding rule for each operation. -/
theorem requestFormats : Obligations.RequestFormats := fun _ =>
  ⟨decode_request_cmd, decode_request_u16, decode_request_color,
    fun h => ⟨decode_request_reserved h, runWord_request_reserved h⟩⟩

/-- Settles O3: the word runs as its instruction does, and that is refused. -/
theorem reservedOperationRefused : Obligations.ReservedOperationRefused := fun _ s h =>
  ⟨runWord_request_reserved h s, exec_reservedOp11 s⟩

/-- Settles O7, by running the decoder on the eight words. -/
theorem wordsDecodeAsWritten : Obligations.WordsDecodeAsWritten := by
  unfold Obligations.WordsDecodeAsWritten
  decide

/-! ### The assembler -/

theorem fieldOperand_of_lt {width n : Nat} (h : n < 2 ^ width) : fieldOperand width n = .ok (BitVec.ofNat width n) :=
  if_pos h

theorem fieldOperand_of_not_lt {width n : Nat} (h : ¬ n < 2 ^ width) : fieldOperand width n = .error .validationError :=
  if_neg h

theorem lt_of_fieldOperand_ok {width n : Nat} {v : BitVec width} (h : fieldOperand width n = .ok v) :
    n < 2 ^ width := by
  by_contra hn
  cases h.symm.trans (fieldOperand_of_not_lt hn)

/-- An omitted operand is 0, which fits every field, so the operands given fit where those of all places do. -/
theorem forall_mem_lt_iff_operandOr0 {ps : List Nat} {n bound : Nat} (hlen : ps.length ≤ n) (hb : 0 < bound) :
    (∀ p ∈ ps, p < bound) ↔ ∀ k < n, operandOr0 ps k < bound := by
  rw [List.forall_mem_iff_getElem]
  constructor
  · intro h k _
    by_cases hk : k < ps.length
    · simpa [operandOr0, hk] using h k hk
    · simpa [operandOr0, hk] using hb
  · intro h k hk
    simpa [operandOr0, hk] using h k (by omega)

theorem assemblePackCmd_of_fits {opc : Nat} {ps : List Nat} (ho : opc < 256) (hlen : ps.length ≤ 4)
    (hps : ∀ p ∈ ps, p < 65536) :
    assemblePackCmd opc ps = .ok (.packCmd (BitVec.ofNat 8 opc) (BitVec.ofNat 16 (ps.getD 0 0))
      (BitVec.ofNat 16 (ps.getD 1 0)) (BitVec.ofNat 16 (ps.getD 2 0)) (BitVec.ofNat 16 (ps.getD 3 0))) := by
  have hfit : ∀ k < 4, operandOr0 ps k < 2 ^ 16 := (forall_mem_lt_iff_operandOr0 hlen (by decide)).mp hps
  rw [assemblePackCmd, if_pos hlen, fieldOperand_of_lt ho, fieldOperand_of_lt (hfit 0 (by decide)),
    fieldOperand_of_lt (hfit 1 (by decide)), fieldOperand_of_lt (hfit 2 (by decide)),
    fieldOperand_of_lt (hfit 3 (by decide))]
  simp [operandOr0]

theorem assemblePackCmd_of_not_fits {opc : Nat} {ps : List Nat}
    (h : ¬ (opc < 256 ∧ ps.length ≤ 4 ∧ ∀ p ∈ ps, p < 65536)) : assemblePackCmd opc ps = .error .validationError := by
  unfold assemblePackCmd
  split
  · rename_i hlen
    split
    · rename_i ho h0 h1 h2 h3
      have hfit : ∀ k < 4, operandOr0 ps k < 65536 := by
        intro k hk
        interval_cases k
        · exact lt_of_fieldOperand_ok h0
        · exact lt_of_fieldOperand_ok h1
        · exact lt_of_fieldOperand_ok h2
        · exact lt_of_fieldOperand_ok h3
      exact absurd ⟨lt_of_fieldOperand_ok ho, hlen, (forall_mem_lt_iff_operandOr0 hlen (by decide)).mpr hfit⟩ h
    · rfl
  · rfl

theorem assemblePackColor_of_not_fits {r g b : Nat} (h : ¬ (r < 256 ∧ g < 256 ∧ b < 256)) :
    assemblePackColor r g b = .error .validationError := by
  unfold assemblePackColor
  split
  · rename_i hr hg hb
    exact absurd ⟨lt_of_fieldOperand_ok hr, lt_of_fieldOperand_ok hg, lt_of_fieldOperand_ok hb⟩ h
  · rfl

/-- Settles O52: an instruction is assembled where every operand fits, and only there. -/
theorem assemblerRefusesWideOperands : Obligations.AssemblerRefusesWideOperands := by
  refine ⟨fun opc ps => ⟨fun ⟨ho, hlen, hps⟩ => assemblePackCmd_of_fits ho hlen hps, assemblePackCmd_of_not_fits⟩,
    fun n => ⟨fun h => ?_, fun h => ?_⟩, fun r g b => ⟨fun ⟨hr, hg, hb⟩ => ?_, assemblePackColor_of_not_fits⟩⟩
  · rw [assemblePackU16, fieldOperand_of_lt h]
  · rw [assemblePackU16, fieldOperand_of_not_lt h]
  · rw [assemblePackColor, fieldOperand_of_lt hr, fieldOperand_of_lt hg, fieldOperand_of_lt hb]

/-- No pseudo-instruction has the opcode of SetBrightness (43_device_commands.md R126). -/
theorem setBrightness_not_mem_pseudo_items (p : Pseudo) (slot : OrientParamSlot) (p1 p2 p3 p4 : BitVec 16) :
    .instr (.cmd 0x6E p1 p2 p3 p4) ∉ p.items slot := by
  cases p with
  | orient f => cases slot <;> simp [Pseudo.items, orientItems, plainFrame]
  | _ => simp [Pseudo.items, plainFrame, bitmapHeaderItems]

/-- Settles O53: the expansions are the definition's own rows. -/
theorem pseudoInstructionsExpand : Obligations.PseudoInstructionsExpand :=
  ⟨setBrightness_not_mem_pseudo_items, fun _ _ _ _ _ _ => ⟨rfl, rfl, rfl, rfl, rfl, rfl, rfl, rfl, rfl⟩⟩

end Sys2Proof.Machine
end

section
/-! The obligations of 41_frame_encoder.md: the frame that PACKCMD answers and its bytes, unpacking it, and the two
bytes that PACKU16 answers. -/

namespace Sys2Proof.Machine

/-! ### The meaningful bits of a parameter -/

theorem meaningfulBits_toNat (p : BitVec 16) : (meaningfulBits p).toNat = p.toNat % 1024 :=
  BitVec.extractLsb'_toNat ..

theorem meaningfulBits_mod (p : BitVec 16) : meaningfulBits (BitVec.ofNat 16 (p.toNat % 1024)) = meaningfulBits p := by
  apply BitVec.eq_of_toNat_eq
  simp only [meaningfulBits_toNat, BitVec.toNat_ofNat]
  omega

theorem meaningfulBits_setWidth (a : BitVec 10) : meaningfulBits (a.setWidth 16) = a := by
  apply BitVec.eq_of_toNat_eq
  rw [meaningfulBits_toNat, BitVec.toNat_setWidth]
  omega

/-- 41_frame_encoder.md R83: a frame keeps each parameter modulo 1024. -/
theorem packFrame_mod (opcode : Byte) (p1 p2 p3 p4 : BitVec 16) :
    packFrame opcode (BitVec.ofNat 16 (p1.toNat % 1024)) (BitVec.ofNat 16 (p2.toNat % 1024))
      (BitVec.ofNat 16 (p3.toNat % 1024)) (BitVec.ofNat 16 (p4.toNat % 1024)) = packFrame opcode p1 p2 p3 p4 := by
  simp only [packFrame, meaningfulBits_mod]

theorem packFrame_setWidth (opcode : Byte) (a b c d : BitVec 10) :
    packFrame opcode (a.setWidth 16) (b.setWidth 16) (c.setWidth 16) (d.setWidth 16) = packFields opcode a b c d := by
  simp only [packFrame, meaningfulBits_setWidth]

/-- Settles O9: both requests present the same frame, because its fields are the meaningful bits alone. -/
theorem parametersMasked : Obligations.ParametersMasked := by
  refine ⟨fun opcode p1 p2 p3 p4 s => ⟨_, _, exec_packCmd .., exec_packCmd .., ?_, ?_⟩, fun opcode p2 p3 p4 => ?_⟩
  · simp only [State.present_responses, fce, packFrame_mod]
  · simp only [State.frameB_present_cmd, packFrame_mod]
  · have h1024 : meaningfulBits 1024 = meaningfulBits 0 := by decide
    have hFFFF : meaningfulBits 0xFFFF = meaningfulBits 1023 := by decide
    simp only [packFrame, h1024, hFFFF, and_self]

/-! ### The bytes of a frame -/

/-- The slices of 41_frame_encoder.md R82, taken of the 16-bit parameters themselves. -/
theorem packFrame_eq_slices (opcode : Byte) (p1 p2 p3 p4 : BitVec 16) :
    packFrame opcode p1 p2 p3 p4 =
      { b0 := p1.extractLsb' 2 8
        b1 := p1.extractLsb' 0 2 ++ p2.extractLsb' 4 6
        b2 := p2.extractLsb' 0 4 ++ p3.extractLsb' 6 4
        b3 := p3.extractLsb' 0 6 ++ p4.extractLsb' 8 2
        b4 := p4.extractLsb' 0 8
        b5 := opcode } := by
  simp (disch := decide) only [packFrame, packFields, meaningfulBits, extractLsb'_extractLsb', Nat.zero_add]

/-- A slice as the source writes one: shift, then mask. -/
theorem toNat_extractLsb'_eq_and_mask {w : Nat} (x : BitVec w) (start n : Nat) :
    (x.extractLsb' start n).toNat = (x.toNat >>> start) &&& (2 ^ n - 1) := by
  rw [BitVec.extractLsb'_toNat, Nat.and_two_pow_sub_one_eq_mod]

/-- Settles O8: the instruction presents its one request, and each byte is a slice or two slices side by side. -/
theorem packCmdAnswersFrame : Obligations.PackCmdAnswersFrame := by
  refine ⟨decode_encode_packCmd, fun opcode p1 p2 p3 p4 s => ?_, fun opcode p1 p2 p3 p4 => ?_, by decide,
    fun opcode h => assemblePackCmd_of_fits h (by decide) nofun⟩
  · rw [exec_packCmd, ← packFrame_eq_slices]
    rfl
  · rw [packFrame_eq_slices]
    have hopcode : opcode.toNat &&& 0xFF = opcode.toNat := Nat.and_two_pow_sub_one_of_lt_two_pow opcode.isLt
    refine ⟨BitVec.extractLsb'_toNat .., ?_, ?_, ?_, toNat_extractLsb'_eq_and_mask .., hopcode.symm⟩ <;>
      rw [BitVec.toNat_append, toNat_extractLsb'_eq_and_mask, toNat_extractLsb'_eq_and_mask] <;> rfl

/-- Settles O12: the model's byte5 is the opcode, and its other bytes are made of the parameters. -/
theorem opcodeIsByteFive : Obligations.OpcodeIsByteFive := by
  intro opcode opcode' p1 p2 p3 p4 s
  exact ⟨_, _, _, _, exec_packCmd .., exec_packCmd .., State.frameB_present_cmd .., State.frameB_present_cmd ..,
    rfl, rfl, rfl, rfl, rfl, rfl, rfl⟩

/-! ### A frame as one word, and unpacking -/

/-- A frame word's fields pack into its six bytes, the first one on top (20_memory.md R42). -/
theorem packFields_of_word (w : FrameWord) :
    packFields (FrameWord.opcode w) (FrameWord.p1 w) (FrameWord.p2 w) (FrameWord.p3 w) (FrameWord.p4 w) =
      { b0 := w.extractLsb' 40 8, b1 := w.extractLsb' 32 8, b2 := w.extractLsb' 24 8, b3 := w.extractLsb' 16 8,
        b4 := w.extractLsb' 8 8, b5 := w.extractLsb' 0 8 } := by
  simp (disch := decide) only [packFields, FrameWord.opcode, FrameWord.p1, FrameWord.p2, FrameWord.p3, FrameWord.p4,
    extractLsb'_extractLsb', BitVec.extractLsb'_append_extractLsb'_eq_extractLsb']

/-- The six bytes joined are the four fields and the opcode (41_frame_encoder.md R84). -/
theorem packFields_word (opcode : Byte) (a b c d : BitVec 10) :
    (packFields opcode a b c d).word = frameWord opcode a b c d := by
  have hbytes := packFields_of_word (frameWord opcode a b c d)
  obtain ⟨ha, hb, hc, hd⟩ := frameWord_fields opcode a b c d
  rw [Laws.TableRow.opcode_frameWord, ha, hb, hc, hd] at hbytes
  rw [hbytes]
  simp (disch := decide) only [CommandFrame.word, BitVec.extractLsb'_append_extractLsb'_eq_extractLsb']
  exact BitVec.extractLsb'_eq_self

/-- Settles O10: the frame of the answer is also the port's, and its word is put together from the fields. -/
theorem frameConcatenation : Obligations.FrameConcatenation := by
  intro opcode p1 p2 p3 p4 s
  exact ⟨_, _, exec_packCmd .., State.present_responses .., State.frameB_present_cmd .., packFields_word ..⟩

/-- Packing what was unpacked gives the frame back (41_frame_encoder.md R85). -/
theorem packFields_of_unpack (f : CommandFrame) : packFields f.unopc f.unp1 f.unp2 f.unp3 f.unp4 = f := by
  simp (disch := decide) only [packFields, CommandFrame.unopc, CommandFrame.unp1, CommandFrame.unp2, CommandFrame.unp3,
    CommandFrame.unp4, BitVec.extractLsb'_append_eq_of_le, BitVec.extractLsb'_append_eq_of_add_le, Nat.reduceSub,
    BitVec.extractLsb'_eq_self, BitVec.extractLsb'_append_extractLsb']

theorem packFields_unopc (opcode : Byte) (a b c d : BitVec 10) : (packFields opcode a b c d).unopc = opcode := rfl

/-- Settles O11: packing and unpacking are inverse to each other on the meaningful bits. -/
theorem unpackRecoversFields : Obligations.UnpackRecoversFields := by
  refine ⟨fun opcode p1 p2 p3 p4 => ?_, fun f => ⟨(f.unopc, f.unp1, f.unp2, f.unp3, f.unp4), ?_, ?_⟩⟩
  · obtain ⟨h1, h2, h3, h4⟩ :=
      packFields_unpack opcode (meaningfulBits p1) (meaningfulBits p2) (meaningfulBits p3) (meaningfulBits p4)
    simp only [packFrame, h1, h2, h3, h4, packFields_unopc, meaningfulBits_toNat, and_self]
  · exact (packFrame_setWidth ..).trans (packFields_of_unpack f)
  · rintro ⟨opcode, a, b, c, d⟩ rfl
    obtain ⟨ha, hb, hc, hd⟩ := packFields_unpack opcode a b c d
    simp only [packFrame_setWidth, ha, hb, hc, hd, packFields_unopc]

/-! ### PACKU16 -/

/-- Settles O13: the instruction presents its one request, whose response is the two slices. -/
theorem packU16AnswersBytes : Obligations.PackU16AnswersBytes :=
  ⟨decode_encode_packU16, exec_packU16, fun s => ⟨_, exec_packU16 320 s, State.present_responses ..⟩⟩

/-- 41_frame_encoder.md R89. -/
theorem u16Low_add_u16High (n : BitVec 16) : (u16Low n).toNat + 256 * (u16High n).toNat = n.toNat := by
  simp only [u16Low, u16High, BitVec.extractLsb'_toNat, Nat.shiftRight_eq_div_pow]
  omega

theorem portOfInt_natCast_toNat (k : Nat) : (portOfInt k).toNat = k % 65536 := by
  rw [portOfInt, BitVec.ofInt_natCast, BitVec.toNat_ofNat]

/-- Settles O14: the port's two bytes are those of the answer, and they are the digits of n to the base 256. -/
theorem packU16RoundTrip : Obligations.PackU16RoundTrip :=
  ⟨fun n s => ⟨_, _, _, exec_packU16 n s, State.present_responses .., State.u16B_present_u16 s n,
    u16Low_add_u16High n⟩, portOfInt_natCast_toNat, by decide⟩

end Sys2Proof.Machine
end

section
/-! The obligations of 42_color_converter.md: the scaling of one channel, and the ColorWord that PACKCOLOR answers. -/

namespace Sys2Proof.Machine

/-! ### Scaling one channel -/

/-- A channel scales to k exactly from `ceil(255 k / max)` on and before the same bound of k + 1 (42_color_converter.md
R104). -/
theorem scale_eq_iff_ceilDiv {max : Nat} (h : 0 < max) (c : Byte) (k : Nat) :
    scale c max = k ↔ (255 * k) ⌈/⌉ max ≤ c.toNat ∧ c.toNat < (255 * (k + 1)) ⌈/⌉ max := by
  have hbound (n : Nat) : n ⌈/⌉ max ≤ c.toNat ↔ n ≤ c.toNat * max := by
    rw [ceilDiv_le_iff_le_mul h, Nat.mul_comm]
  rw [← not_le, hbound, hbound, scale]
  omega

/-- Settles O16: the two bounds are ceiling divisions by 31 and by 63. -/
theorem scalingTableBounds : Obligations.ScalingTableBounds := fun c k =>
  ⟨scale_eq_iff_ceilDiv (by decide) c k, scale_eq_iff_ceilDiv (by decide) c k⟩

theorem scale_zero (max : Nat) : scale 0 max = 0 := by simp [scale]

theorem scale_full (max : Nat) : scale 255 max = max := Nat.mul_div_cancel_left max (by decide)

theorem scale_mono {c c' : Byte} (h : c ≤ c') (max : Nat) : scale c max ≤ scale c' max :=
  Nat.div_le_div_right (Nat.mul_le_mul_right max h)

theorem scale_le_max (c : Byte) (max : Nat) : scale c max ≤ max :=
  (scale_mono (Nat.le_of_lt_succ c.isLt : c ≤ 255) max).trans_eq (scale_full max)

/-- A quotient of 255 that reaches max takes a channel of 255, since the division truncates (42_color_converter.md
R106). -/
theorem scale_eq_max_iff {max : Nat} (h : 0 < max) (c : Byte) : scale c max = max ↔ c = 255 := by
  refine ⟨fun hc => ?_, fun hc => hc ▸ scale_full max⟩
  have hmul : max * 255 ≤ c.toNat * max := (Nat.le_div_iff_mul_le (by decide)).mp hc.ge
  have hle : 255 ≤ c.toNat := Nat.le_of_mul_le_mul_left (hmul.trans_eq (Nat.mul_comm ..)) h
  bv_omega

/-- Settles O18: the facts about `scale` hold at every positive maximum, and the fields are those of the word. -/
theorem scalingMonotoneAndBounded : Obligations.ScalingMonotoneAndBounded := by
  refine ⟨fun max hmax => ?_, packColorWord_fields, rfl, rfl⟩
  have hpos : 0 < max := by omega
  exact ⟨fun c => ⟨scale_le_max c max, scale_eq_max_iff hpos c⟩, fun c c' h => scale_mono h max, scale_zero max⟩

/-! ### PACKCOLOR -/

/-- Settles O15: the request just presented drives its three ports, and its response is the word of the scaled
channels. -/
theorem packColorAnswersWord : Obligations.PackColorAnswersWord := by
  refine ⟨decode_encode_packColor, fun r g b s => ?_, fun s => ⟨_, exec_packColor .., State.present_responses ..⟩⟩
  obtain ⟨hred, hgreen, hblue⟩ := packColorWord_fields r g b
  have hword := packColorWord_toNat r g b
  rw [hred, hgreen, hblue] at hword
  exact ⟨packColorWord r g b, exec_packColor r g b s, hword, hred, hgreen, hblue⟩

/-- Settles O17: a field's number is its own channel, scaled. -/
theorem colorFieldsIndependent : Obligations.ColorFieldsIndependent := by
  intro r g b r' g' b' s
  obtain ⟨hred, hgreen, hblue⟩ := packColorWord_fields r g b
  obtain ⟨hred', hgreen', hblue'⟩ := packColorWord_fields r' g' b'
  refine ⟨_, _, _, _, exec_packColor .., exec_packColor .., State.present_responses .., State.present_responses ..,
    fun h => BitVec.eq_of_toNat_eq ?_, fun h => BitVec.eq_of_toNat_eq ?_, fun h => BitVec.eq_of_toNat_eq ?_⟩
  · exact hred.trans (h ▸ hred'.symm)
  · exact hgreen.trans (h ▸ hgreen'.symm)
  · exact hblue.trans (h ▸ hblue'.symm)

end Sys2Proof.Machine
end

section
/-! The obligations of 43_device_commands.md on the messages themselves: their bytes and lengths, the Rectangle in a
bitmap's header, and reading them off the wire. -/

namespace Sys2Proof.Machine

/-! ### The bytes and the lengths of the messages -/

@[simp] theorem CommandFrame.bytes_length (f : CommandFrame) : f.bytes.length = 6 := rfl

/-- The frame that heads a bitmap, of what a frame keeps of the Rectangle's four integers (43_device_commands.md R129,
R134). -/
def rectangleFrame (x y : Int) (w h : Nat) : CommandFrame :=
  packFields 0xC5#8 (fieldOfInt x) (fieldOfInt y) (fieldOfInt (x + w - 1)) (fieldOfInt (y + h - 1))

@[simp] theorem rectangleFrame_unopc (x y : Int) (w h : Nat) : (rectangleFrame x y w h).unopc = 0xC5#8 := rfl

theorem rectangleFrame_unpack (x y : Int) (w h : Nat) :
    (rectangleFrame x y w h).unp1 = fieldOfInt x ∧ (rectangleFrame x y w h).unp2 = fieldOfInt y ∧
    (rectangleFrame x y w h).unp3 = fieldOfInt (x + w - 1) ∧ (rectangleFrame x y w h).unp4 = fieldOfInt (y + h - 1) :=
  packFields_unpack ..

theorem headerFor_bytes_eq_rectangleFrame (order : PixelWireOrder) (x y : Int) (w h : Nat) :
    messageBytes order (headerFor x y w h) = (rectangleFrame x y w h).bytes := headerFor_bytes order x y w h

theorem orientationMessage_length (slot : OrientParamSlot) (o : Orientation) (reverse : Bool) :
    (orientationMessage slot o reverse).length =
      match slot with
      | .p1 => 15
      | .trailingByte => 16 := by
  cases slot <;> cases o <;> cases reverse <;> rfl

/-- The rows of an image that is drawable are all of one length on the wire. -/
theorem Image.Drawable.row_bytes_length {img : Image} (h : img.Drawable) (order : PixelWireOrder) :
    ∀ row ∈ img.rows.map (fun row => messageBytes order (rowItems row)), row.length = 2 * img.width := by
  obtain ⟨-, -, hwidth⟩ := h
  simp only [List.mem_map, forall_exists_index, and_imp, forall_apply_eq_imp_iff₂, rowItems_bytes_length]
  exact fun row hrow => by rw [hwidth row hrow]

/-- The messages of a bitmap: the header's frame and one message for each row. -/
theorem displayBitmap_bytes (order : PixelWireOrder) (slot : OrientParamSlot) (x y : Int) (img : Image) :
    (HostCall.displayBitmap x y (.image img)).bytes order slot =
      (rectangleFrame x y img.width img.height).bytes ::
        img.rows.map (fun row => messageBytes order (rowItems row)) := by
  simp [HostCall.bytes, HostCall.messages, headerFor_bytes_eq_rectangleFrame, Function.comp_def]

theorem setOrientation_bytes (order : PixelWireOrder) (slot : OrientParamSlot) (o : Orientation) (reverse : Bool) :
    (HostCall.setOrientation o reverse).bytes order slot =
      [geometryResetMessage, orientationMessage slot o reverse] := by
  simp [HostCall.bytes, HostCall.messages, geometryResetItems_bytes, setOrientationItems_bytes]

/-- init writes Reset and then what setOrientation(Portrait) writes (43_device_commands.md R131). -/
theorem init_bytes (order : PixelWireOrder) (slot : OrientParamSlot) :
    HostCall.init.bytes order slot =
      (packFrame 0xFF 0 0 0 0).bytes :: (HostCall.setOrientation .portrait false).bytes order slot := rfl

/-- Settles O49: a frame is 6 bytes, the two messages of setOrientation are written out, and a row is two bytes for each
sample. -/
theorem messageLengths : Obligations.MessageLengths := by
  intro order slot
  refine ⟨?_, ?_, fun o reverse => ?_, fun x y img h => ?_⟩
  · simp only [List.forall_mem_cons, List.not_mem_nil, false_implies, implies_true, and_true]
    exact ⟨rfl, rfl, rfl, rfl⟩
  · rw [init_bytes, setOrientation_bytes]
    cases slot <;> rfl
  · rw [setOrientation_bytes, List.map_cons, List.map_cons, orientationMessage_length]
    cases slot <;> rfl
  · rw [displayBitmap_bytes, List.map_cons, CommandFrame.bytes_length]
    refine congrArg _ (List.eq_replicate_iff.mpr ⟨by simp [Image.height], ?_⟩)
    simpa using h.row_bytes_length order

/-- Settles O24: the message is written out in the model, so its parts are compared for each slot and orientation
byte. -/
theorem orientationMessageLayout : Obligations.OrientationMessageLayout := by
  intro order slot o reverse f w h hf hw hh
  refine ⟨_, setOrientation_bytes order slot o reverse, ?_, rfl, orientationMessage_length slot o reverse⟩
  subst hf hw hh
  cases slot <;> cases o <;> cases reverse <;> rfl

/-! ### The Rectangle in a bitmap's header -/

/-- Settles O48: the frame packs what it keeps of each of the host's integers. -/
theorem rectangleWrapsOnWire : Obligations.RectangleWrapsOnWire := by
  intro x y w h
  obtain ⟨h1, h2, h3, h4⟩ := rectangleFrame_unpack x y w h
  refine ⟨rectangleFrame x y w h, fun order => headerFor_bytes_eq_rectangleFrame order x y w h, rfl, ?_⟩
  rw [h1, h2, h3, h4]
  exact ⟨fieldOfInt_toNat _, fieldOfInt_toNat _, fieldOfInt_toNat _, fieldOfInt_toNat _, rfl⟩

/-! ### Reading the messages off the wire -/

theorem CommandFrame.ofBytes_append (f : CommandFrame) (rest : List Byte) :
    CommandFrame.ofBytes (f.bytes ++ rest) = some f := rfl

/-- A message headed by a frame, whose length the opcode gives, and the rows that the frame announces. -/
theorem readMessage_append {slot : OrientParamSlot} {f : CommandFrame} {tail : List Byte} {rows : List (List Byte)}
    {n : Nat} (hlen : messageLength slot f.unopc = .ok (f.bytes ++ tail).length)
    (hrows : rowsAfter f = .ok (rows.length, n)) (hn : ∀ row ∈ rows, row.length = n) (rest : List Byte) :
    readMessage slot (((f.bytes ++ tail) :: rows).flatten ++ rest) = .ok ((f.bytes ++ tail) :: rows, rest) := by
  have hframe : CommandFrame.ofBytes (((f.bytes ++ tail) :: rows).flatten ++ rest) = some f := by
    simp only [List.flatten_cons, List.append_assoc, CommandFrame.ofBytes_append]
  simp only [readMessage, hframe, hlen, hrows]
  rw [List.flatten_cons, List.append_assoc, takeMessage_append _ _ rfl]
  simp only [takeRows_append n rows rest hn]

/-- Messages that a reader finds one frame after the other, each frame with the rows that follow it. -/
inductive Readable (slot : OrientParamSlot) : List (List Byte) → Prop where
  | nil : Readable slot []
  | message {msg : List Byte} {rows more : List (List Byte)} (hmsg : msg ≠ [])
      (hread : ∀ rest, readMessage slot ((msg :: rows).flatten ++ rest) = .ok (msg :: rows, rest))
      (hmore : Readable slot more) : Readable slot (msg :: rows ++ more)

theorem Readable.append {slot : OrientParamSlot} {msgs msgs' : List (List Byte)} (h : Readable slot msgs)
    (h' : Readable slot msgs') : Readable slot (msgs ++ msgs') := by
  induction h with
  | nil => exact h'
  | message hmsg hread _ ih => rw [List.append_assoc]; exact .message hmsg hread ih

/-- Readable messages are read off their stream with one unit of fuel for each. -/
theorem Readable.readStream {slot : OrientParamSlot} {msgs : List (List Byte)} (h : Readable slot msgs) :
    ∀ fuel, msgs.length ≤ fuel → readStream slot fuel msgs.flatten = .ok msgs := by
  induction h with
  | nil => intro fuel _; cases fuel <;> rfl
  | @message msg rows more hmsg hread _ ih =>
    intro fuel hfuel
    cases fuel with
    | zero => simp at hfuel
    | succ fuel =>
      obtain ⟨b, bs, hb⟩ := List.exists_cons_of_ne_nil hmsg
      have hcons : (msg :: rows ++ more).flatten = b :: (bs ++ rows.flatten ++ more.flatten) := by simp [hb]
      rw [hcons, Sys2Proof.Machine.readStream, ← hcons, List.flatten_append, hread]
      · simp only [ih fuel (by simp at hfuel; omega)]
      · simp

/-- A message that no rows follow. -/
theorem Readable.frame {slot : OrientParamSlot} {f : CommandFrame} {tail : List Byte} {more : List (List Byte)}
    (hlen : messageLength slot f.unopc = .ok (f.bytes ++ tail).length) (hop : f.unopc ≠ 0xC5#8)
    (h : Readable slot more) : Readable slot ((f.bytes ++ tail) :: more) :=
  .message (rows := []) nofun (readMessage_append hlen (n := 0) (if_neg hop) nofun) h

/-- A message that is a frame without parameters alone. -/
theorem readable_plainFrame {slot : OrientParamSlot} {opcode : Byte} (hlen : messageLength slot opcode = .ok 6)
    (hop : opcode ≠ 0xC5#8) : Readable slot [(packFrame opcode 0 0 0 0).bytes] :=
  .frame (f := packFrame opcode 0 0 0 0) (tail := []) hlen hop .nil

/-- The SetOrientation message is a frame of its opcode and what ORIENT_PARAM_SLOT puts after it. -/
theorem readable_setOrientation (order : PixelWireOrder) (slot : OrientParamSlot) (o : Orientation) (reverse : Bool) :
    Readable slot ((HostCall.setOrientation o reverse).bytes order slot) := by
  have hop : (0x79#8 : Byte) ≠ 0xC5#8 := by decide
  refine .frame (f := packFrame 0x7A 0 0 0 0) (tail := List.replicate 10 0) rfl (by decide) ?_
  cases slot with
  | p1 => exact .frame (f := packFrame 0x79 ((orientationByte o reverse).setWidth 16) 0 0 0) rfl hop .nil
  | trailingByte => exact .frame (f := packFrame 0x79 0 0 0 0) rfl hop .nil

/-- A coordinate on the screen is kept whole (43_device_commands.md R132). -/
theorem fieldOfInt_toNat_of_lt {n : Int} (h0 : 0 ≤ n) (h : n < 1024) : ((fieldOfInt n).toNat : Int) = n := by
  rw [fieldOfInt_toNat, Int.emod_eq_of_lt h0 h]

/-- The header of an unwrapped Rectangle announces its rows and the bytes of each. -/
theorem rowsAfter_unwrapped {x y : Int} {w h : Nat} (hw : 0 < w) (hh : 0 < h) (hx : 0 ≤ x) (hxw : x + w ≤ 1024)
    (hy : 0 ≤ y) (hyh : y + h ≤ 1024) :
    rowsAfter (rectangleFrame x y w h) = .ok (h, 2 * w) := by
  obtain ⟨h1, h2, h3, h4⟩ := rectangleFrame_unpack x y w h
  have e1 := fieldOfInt_toNat_of_lt hx (by omega)
  have e2 := fieldOfInt_toNat_of_lt hy (by omega)
  have e3 : ((fieldOfInt (x + w - 1)).toNat : Int) = x + w - 1 := fieldOfInt_toNat_of_lt (by omega) (by omega)
  have e4 : ((fieldOfInt (y + h - 1)).toNat : Int) = y + h - 1 := fieldOfInt_toNat_of_lt (by omega) (by omega)
  have hordered : fieldOfInt x ≤ fieldOfInt (x + w - 1) ∧ fieldOfInt y ≤ fieldOfInt (y + h - 1) := by
    rw [BitVec.le_def, BitVec.le_def]; omega
  rw [rowsAfter, if_pos (rectangleFrame_unopc x y w h), h1, h2, h3, h4, if_pos hordered]
  congr 2 <;> omega

theorem readable_displayBitmap (order : PixelWireOrder) (slot : OrientParamSlot) {x y : Int} {img : Image}
    (h : (HostCall.displayBitmap x y (.image img)).Unwrapped) :
    Readable slot ((HostCall.displayBitmap x y (.image img)).bytes order slot) := by
  obtain ⟨hd, hx, hxw, hy, hyh⟩ := h
  obtain ⟨hwidth, hrows, -⟩ := id hd
  rw [displayBitmap_bytes, ← List.append_nil (_ :: _)]
  refine .message nofun (readMessage_append (f := rectangleFrame x y img.width img.height) (tail := []) rfl ?_
    (hd.row_bytes_length order)) .nil
  rw [List.length_map]
  exact rowsAfter_unwrapped hwidth (List.length_pos_iff.mpr hrows) hx hxw hy hyh

theorem HostCall.Unwrapped.readable {c : HostCall} (h : c.Unwrapped) (order : PixelWireOrder) (slot : OrientParamSlot) :
    Readable slot (c.bytes order slot) := by
  cases c with
  | init => exact (readable_plainFrame rfl (by decide)).append (readable_setOrientation order slot .portrait false)
  | clear | toBlack | screenOff | screenOn => exact readable_plainFrame rfl (by decide)
  | setOrientation o reverse => exact readable_setOrientation order slot o reverse
  | displayBitmap x y decoded =>
    cases decoded with
    | image img => exact readable_displayBitmap order slot h
    | failed => exact .nil

/-- Settles O50, by induction on the operations: each one's messages are readable, whatever stands behind them. -/
theorem readerFindsMessageBoundaries : Obligations.ReaderFindsMessageBoundaries := by
  intro order slot calls h
  refine Readable.readStream ?_ _ le_rfl
  induction calls with
  | nil => exact .nil
  | cons c calls ih =>
    rw [List.forall_mem_cons] at h
    exact (h.1.readable order slot).append (ih h.2)

end Sys2Proof.Machine
end

section
/-! The obligations of 43_device_commands.md on one device command or one row: what it writes and what it leaves, and
which words and images are refused. -/

namespace Sys2Proof.Machine

/-! ### The commands of one frame -/

/-- A command whose one request is PACKCMD of an opcode without parameters. -/
theorem State.CanSend.sendCommand_plain {s : State} (h : s.CanSend) {k : MessageKind} {items : List Item}
    {done : State → State} {opcode : Byte} {result : Option HostResult}
    (hreq : messageRequests items = [.cmd opcode 0 0 0 0]) (hdone : ∀ v, done v = { v with result := result }) :
    s.sendCommand k items done =
      .next (s.afterPlainMessage opcode k (messageBytes Config.pixelWireOrder items) result) := by
  rw [h.sendCommand, hreq, hdone]
  rfl

/-- Settles O20: each of the four sends its frame and finishes its operation. -/
theorem parameterFreeCommandsWrite : Obligations.ParameterFreeCommandsWrite :=
  ⟨fun _ h => ⟨h.sendCommand_plain rfl fun _ => rfl, h.sendCommand_plain rfl fun _ => rfl,
    h.sendCommand_plain rfl fun _ => rfl, h.sendCommand_plain rfl fun _ => rfl⟩, fun _ => ⟨rfl, rfl, rfl, rfl⟩⟩

/-- Settles O23: its one request is its frame's, and setOrientation is it and then the SetOrientation instruction. -/
theorem geometryResetWrites : Obligations.GeometryResetWrites :=
  ⟨fun _ h => by
    rw [← geometryResetItems_bytes Config.pixelWireOrder]
    exact h.sendCommand_plain rfl fun _ => rfl, fun _ _ _ => rfl⟩

/-- A Reset of a Transport that is open or opens is its message's write. -/
theorem exec_reset_opened {s : State} (hs : s.session ≠ .failed) (hh : s.hung = false)
    (ho : s.transport = none → s.openFails = false) :
    exec .reset s = s.opened.sendCommand .reset (plainFrame 0xFF#8) State.continueOperation := by
  rw [exec_reset_not_blocked (State.writeBlocked_eq_none.mpr ⟨hs, hh⟩), if_neg]
  rintro ⟨ht, hfails⟩
  rw [ho ht] at hfails
  cases hfails

theorem State.opened_of_transport {s : State} (h : s.transport ≠ none) : s.opened = s := by
  obtain ⟨params, hp⟩ := Option.ne_none_iff_exists'.mp h
  simp only [State.opened, hp]

/-- An open Transport stays as it is, so Reset is its message's write alone. -/
theorem exec_reset_open {s : State} (hs : s.session ≠ .failed) (hh : s.hung = false) (ht : s.transport ≠ none) :
    exec .reset s = s.sendCommand .reset (plainFrame 0xFF#8) State.continueOperation := by
  rw [exec_reset_opened hs hh fun hn => absurd hn ht, State.opened_of_transport ht]

theorem State.opened_of_closed {s : State} (h : s.transport = none) :
    s.opened = { s with transport := some (TransportParams.host s.openPath) } := by
  simp only [State.opened, h]

/-- Of the host operations init alone has a Reset (43_device_commands.md R121). -/
theorem reset_mem_instrs_iff (slot : OrientParamSlot) (c : HostCall) : .reset ∈ c.instrs slot ↔ c = .init := by
  cases c with
  | setOrientation o reverse => cases slot <;> simp [HostCall.instrs, orientationInstr]
  | displayBitmap x y decoded => cases decoded <;> simp [HostCall.instrs, bitmapInstr]
  | _ => simp [HostCall.instrs]

/-- Settles O21: on an open Transport Reset is one frame. -/
theorem resetWritesFrame : Obligations.ResetWritesFrame := by
  refine ⟨fun s h => ?_, reset_mem_instrs_iff, fun slot => rfl⟩
  obtain ⟨hs, hh, -, ht⟩ := h.1
  rw [exec_reset_open hs hh ht]
  exact h.sendCommand_plain rfl fun _ => rfl

/-- Settles O22: where the Transport opens, Reset is the frame's write from the opened state. -/
theorem resetOpensTransport : Obligations.ResetOpensTransport := by
  intro s hs hh ht
  refine ⟨fun ho hr hf => ?_, fun ho => ?_⟩
  · rw [exec_reset_opened hs hh fun _ => ho, State.opened_of_closed ht]
    have hcan : ({ s with transport := some (TransportParams.host s.openPath) } : State).CanSend :=
      ⟨⟨hs, hh, hr, Option.some_ne_none _⟩, hf⟩
    exact hcan.sendCommand_plain rfl fun _ => rfl
  · rw [exec_reset_not_blocked (State.writeBlocked_eq_none.mpr ⟨hs, hh⟩), if_pos ⟨ht, ho⟩]
    rfl

/-! ### SetOrientation -/

theorem orientationOfByte_isSome (f : Byte) : (orientationOfByte f).isSome = isOrientationByte f := by
  unfold orientationOfByte
  split_ifs <;> simp_all [isOrientationByte]

/-- A SetOrientation asks for an orientation exactly where it carries one orientation byte of 43_device_commands.md
R127. -/
theorem orientationOperand_isSome (p1 p2 p3 p4 : BitVec 10) (after : Byte) :
    (orientationOperand p1 p2 p3 p4 after).isSome = wellFormedOrientation p1 p2 p3 p4 after := by
  unfold orientationOperand
  split_ifs with hrest hp1 hinP1
  · obtain ⟨rfl, rfl, rfl⟩ := hrest
    simp [hp1, orientationOfByte_isSome, wellFormedOrientation, orientationInP1, orientationAfter, isOrientationByte]
  · obtain ⟨rfl, rfl, rfl⟩ := hrest
    simp [hp1, hinP1, orientationOfByte_isSome, wellFormedOrientation, orientationInP1, orientationAfter]
  · simp only [wellFormedOrientation, orientationInP1, orientationAfter]
    grind
  · simp only [wellFormedOrientation]
    grind

/-- Settles O26: the instruction asks for no orientation, whatever the state. -/
theorem illFormedOrientationRefused : Obligations.IllFormedOrientationRefused := by
  intro s p1 p2 p3 p4 after h
  have hnone : orientationOperand p1 p2 p3 p4 after = none := by
    rw [← Option.not_isSome_iff_eq_none, orientationOperand_isSome, Bool.not_eq_true]
    exact h
  simp only [exec, execSetOrientation, hnone]

/-- The requests of a SetOrientation message: its frame's, and PACKU16 of the width and of the height. -/
theorem setOrientationItems_requests (slot : OrientParamSlot) (o : Orientation) (reverse : Bool) :
    messageRequests (setOrientationItems slot o reverse) =
      [.cmd 0x79 (match slot with
          | .p1 => (orientationByte o reverse).setWidth 16
          | .trailingByte => 0) 0 0 0,
        .u16 (BitVec.ofNat 16 (dimensions o).1), .u16 (BitVec.ofNat 16 (dimensions o).2)] := by
  cases slot <;> rfl

/-- init is written with one more message exactly where that is the last of its three (43_device_commands.md R131). -/
theorem State.initWritten_written_setOrientation (s : State) (o : Orientation) (reverse : Bool) (bytes : List Byte) :
    (s.written (.setOrientation o reverse) bytes).initWritten = true ↔
      s.kinds = [.reset, .geometryReset] ∧ o = .portrait ∧ reverse = false := by
  have hinit : initKinds = [.reset, .geometryReset] ++ [.setOrientation .portrait false] := rfl
  rw [State.initWritten, beq_iff_eq, State.kinds_add (State.written_wire ..), hinit]
  constructor
  · intro heq
    obtain ⟨hbefore, hlast⟩ := List.append_inj' heq rfl
    exact ⟨hbefore, by simpa using hlast⟩
  · rintro ⟨hbefore, rfl, rfl⟩
    rw [hbefore]

/-- Settles O25: wherever the instruction carries its byte, it sends the one message of its orientation, and what that
leaves is read off for each slot and orientation. -/
theorem setOrientationWrites : Obligations.SetOrientationWrites := by
  intro s o reverse slot h
  obtain ⟨p1, p2, p3, p4, after, hinstr, hoperand⟩ := orientationInstr_operand slot o reverse
  refine ⟨_, by rw [hinstr, exec_setOrientation_operand hoperand, h.sendCommand], ?_⟩
  simp only [State.orientationSet, State.initWritten_written_setOrientation, setOrientationItems_requests,
    setOrientationItems_bytes, State.presentAll_eq]
  generalize Config.orientParamSlot = messageSlot
  cases messageSlot <;> cases o <;> cases reverse <;> rfl

/-! ### Words and instructions that are refused -/

/-- No host operation has a SetBrightness (43_device_commands.md R126). -/
theorem setBrightness_not_mem_instrs (p1 p2 p3 p4 : BitVec 10) (slot : OrientParamSlot) (c : HostCall) :
    .setBrightness p1 p2 p3 p4 ∉ c.instrs slot := by
  cases c with
  | init | setOrientation => cases slot <;> simp [HostCall.instrs, orientationInstr]
  | displayBitmap x y decoded => cases decoded <;> simp [HostCall.instrs, bitmapInstr]
  | clear | toBlack | screenOff | screenOn => simp [HostCall.instrs]

/-- Settles O27: SetBrightness writes no message, so its word runs as its instruction does. -/
theorem brightnessRefused : Obligations.BrightnessRefused := fun s p1 p2 p3 p4 =>
  ⟨exec_setBrightness p1 p2 p3 p4 s,
    (runWord_of_not_ofHostOperation (decode_encode _) rfl s).trans (exec_setBrightness p1 p2 p3 p4 s),
    ⟨_, exec_packCmd 0x6E 0 0 0 0 s, rfl⟩, setBrightness_not_mem_instrs p1 p2 p3 p4⟩

/-- The opcodes whose rows fix all 48 bits share one decoding rule. -/
theorem decodeFrameOnly_of_parameterFree {f : FrameWord}
    (h : FrameWord.opcode f ∈ [0xFF#8, 0x66#8, 0x67#8, 0x6C#8, 0x6D#8, 0x7A#8]) :
    ∃ i, decodeFrameOnly f = decodeParameterFree f i := by
  simp only [List.mem_cons, List.not_mem_nil, or_false] at h
  obtain h | h | h | h | h | h := h <;> exact ⟨_, by simp [decodeFrameOnly, h]; rfl⟩

theorem decode_command_of_decodeFrameOnly_error {f : FrameWord} {why : Reject} (ho : FrameWord.opcode f ≠ 0x79#8)
    (h : decodeFrameOnly f = .error why) (after : Byte) : decode (.command f after) = .error why := by
  simp only [decode, decodeCommand, if_neg ho, h]

theorem decode_command_strayByte {f : FrameWord} {after : Byte} {i : Instr} (ho : FrameWord.opcode f ≠ 0x79#8)
    (h : decodeFrameOnly f = .ok i) (ha : after ≠ 0) : decode (.command f after) = .error .strayByte := by
  simp only [decode, decodeCommand, if_neg ho, h]
  exact if_neg ha

/-- Settles O54: the frame's own decoding gives the first refusal, and the byte after it the second. -/
theorem malformedCommandWordsRefused : Obligations.MalformedCommandWordsRefused := by
  intro f after s
  refine ⟨fun h => ?_, fun h ha => ?_⟩
  · have ho : FrameWord.opcode f ≠ 0x79#8 := fun h79 => by
      rw [← FrameWord.opcode, h79] at h
      revert h
      decide
    obtain ⟨i, hi⟩ := decodeFrameOnly_of_parameterFree h
    refine ⟨fun hp => runWord_of_undecodable ?_ s, fun hp ha => runWord_of_undecodable ?_ s⟩
    · exact decode_command_of_decodeFrameOnly_error ho (hi.trans (if_neg hp)) after
    · exact decode_command_strayByte ho (hi.trans (if_pos hp)) ha
  · refine runWord_of_undecodable ?_ s
    rw [← FrameWord.opcode] at h
    simp only [List.mem_cons, List.not_mem_nil, or_false] at h
    obtain h | h := h <;>
      exact decode_command_strayByte (by simp [h]) (by simp [decodeFrameOnly, h]; rfl) ha

/-! ### DisplayBitmap -/

theorem eq_fieldOfInt_iff (a : BitVec 10) (n : Int) : a = fieldOfInt n ↔ (a.toNat : Int) = n % 1024 := by
  rw [← BitVec.toNat_inj, ← fieldOfInt_toNat, Int.natCast_inj]

theorem Image.fills_iff (img : Image) (x y : Int) (a b c d : BitVec 10) :
    img.fills x y a b c d = true ↔ (∀ row ∈ img.rows, row.length = img.width) ∧
      (a.toNat : Int) = x % 1024 ∧ (b.toNat : Int) = y % 1024 ∧
      (c.toNat : Int) = (x + img.width - 1) % 1024 ∧ (d.toNat : Int) = (y + img.height - 1) % 1024 := by
  simp only [Image.fills, rectangle, Image.wf, Bool.and_eq_true, List.all_eq_true, beq_iff_eq, eq_fieldOfInt_iff,
    and_assoc]

/-- Settles O29: the image is looked at before anything is written. -/
theorem undrawableImagesWriteNothing : Obligations.UndrawableImagesWriteNothing := by
  refine ⟨fun s a b c d call rest hb hd hm => ?_,
    fun s a b c d call img rest hb hd => ⟨fun hz => ?_, fun hw hr hf => ?_⟩, fun s a b c d hb => ?_⟩
  · simp only [exec, execDisplayBitmap, hb, hd, hm]
    rfl
  · rw [exec_displayBitmap_image hb hd, if_pos hz]
  · rw [exec_displayBitmap_image hb hd, if_neg (not_or.mpr ⟨hw.ne', hr⟩), if_neg (mt (Image.fills_iff ..).mp hf)]
  · simp only [exec, execDisplayBitmap, hb]

/-- A drawable image under a header that is its Rectangle is its header's write. -/
theorem exec_displayBitmap_drawable {s : State} {call : BitmapCall} {rest : List BitmapCall} {img : Image}
    (hb : s.bitmaps = call :: rest) (hd : call.decoded = .image img) (himg : img.Drawable) {a b c d : BitVec 10}
    (hfills : img.fills call.x call.y a b c d = true) :
    exec (.displayBitmap a b c d) s = ({ s with bitmaps := rest } : State).sendCommand (.bitmapHeader img.height)
      (headerFor call.x call.y img.width img.height) (State.rasterDue img.rows) := by
  obtain ⟨hwidth, hrows, -⟩ := himg
  rw [exec_displayBitmap_image hb hd, if_neg (not_or.mpr ⟨hwidth.ne', hrows⟩), if_pos hfills]

/-- Settles O28: the header is one PACKCMD of the host's own integers. -/
theorem bitmapHeaderWritten : Obligations.BitmapHeaderWritten := by
  intro s x y img rest a b c d h hb himg ha hb' hc hd
  obtain ⟨h1, h2, h3, h4⟩ := rectangleFrame_unpack x y img.width img.height
  refine ⟨rectangleFrame x y img.width img.height, rfl, h1.trans ((eq_fieldOfInt_iff ..).mpr ha).symm,
    h2.trans ((eq_fieldOfInt_iff ..).mpr hb').symm, h3.trans ((eq_fieldOfInt_iff ..).mpr hc).symm,
    h4.trans ((eq_fieldOfInt_iff ..).mpr hd).symm, ?_⟩
  have hcan : ({ s with bitmaps := rest } : State).CanSend := h
  obtain ⟨-, -, hwidths⟩ := id himg
  rw [exec_displayBitmap_drawable hb rfl himg ((Image.fills_iff ..).mpr ⟨hwidths, ha, hb', hc, hd⟩),
    hcan.sendCommand, headerFor_bytes_eq_rectangleFrame]
  rfl

/-! ### The rows of a bitmap -/

/-- While rows are due, a step of the owner is the write of the next one (log entry 14). -/
theorem step_row {s : State} {row : List Rgb} {rest : List (List Rgb)} (hr : s.raster = row :: rest)
    (hh : s.hung = false) (ht : s.turns.head? ≠ some .caller) :
    step s = ({ s with turns := s.turns.tail } : State).writeRow row rest := by
  have howner : ({ s with turns := s.turns.tail } : State).ownerAction =
      (.row row rest, { s with turns := s.turns.tail }) := by
    simp [State.ownerAction, hh, hr]
  simp only [step, State.fetch_owner ht, howner]

/-- A row presents one PACKCOLOR for each sample. -/
theorem rowItems_requests (row : List Rgb) :
    messageRequests (rowItems row) = row.map fun px => .color px.r px.g px.b := by
  rw [messageRequests, rowItems, List.flatMap_map, List.map_eq_flatMap]
  rfl

theorem rowItems_bytes (order : PixelWireOrder) (row : List Rgb) :
    messageBytes order (rowItems row) = row.flatMap fun px => serializeColor order (packColorWord px.r px.g px.b) := by
  induction row with
  | nil => rfl
  | cons px row ih => rw [rowItems_bytes_cons, List.flatMap_cons, ih]

/-- The colour ports keep the last sample of a row. -/
theorem foldl_drive_colors (row : List Rgb) (p : InPorts) :
    (row.map fun px => Request.color px.r px.g px.b).foldl InPorts.drive p =
      { p with
        colR := (row.getLast?.map Rgb.r).getD p.colR
        colG := (row.getLast?.map Rgb.g).getD p.colG
        colB := (row.getLast?.map Rgb.b).getD p.colB } := by
  induction row using List.reverseRecOn with
  | nil => rfl
  | append_singleton row px ih => simp [ih, InPorts.drive]

/-- Settles O30: the row is a write of its own, whose requests are one PACKCOLOR for each sample. -/
theorem rowWritten : Obligations.RowWritten := by
  intro s row rest hr hs hh ht hf hturn
  refine ⟨_, (step_row hr hh hturn).trans (State.send_completes hs hh ht hf), ?_⟩
  rw [rowItems_requests, rowItems_bytes, State.presentAll_eq, foldl_drive_colors, List.map_map]
  generalize Config.pixelWireOrder = order
  cases rest <;> cases order <;> rfl

/-- Settles O32: what a failing row leaves is read off `State.writeFailed`. -/
theorem failedRowAbortsBitmap : Obligations.FailedRowAbortsBitmap := by
  intro s row rest hr hs hh ht hf hturn
  exact ⟨_, Config.failedPrefix s.draws, (step_row hr hh hturn).trans (State.send_fails hs hh ht hf), by simp,
    rfl, rfl, rfl, rfl, by simp⟩

end Sys2Proof.Machine
end

section
/-! The obligations of 43_device_commands.md on whole host operations: init, and any operation of a Ready session, run
to their end where every write completes. -/

namespace Sys2Proof.Machine

/-! ### One message of an operation whose writes complete -/

/-- The owner is at work and nothing stops it: the wire stands at `p`, the words `ws` are still to be issued and the
rows `rows` to be written, every turn is the owner's, and every write completes. -/
structure State.Running (s : State) (p : Phase) (ws : List Word) (rows : List (List Rgb)) : Prop where
  live : s.session ≠ .failed
  hung : s.hung = false
  transport : s.transport ≠ none
  turns : s.turns = []
  fates : ∀ fate ∈ s.fates, fate = .completes
  phase : s.phase = .next p
  current : s.current = ws
  raster : s.raster = rows

theorem State.nextFate_of_completes {s : State} (h : ∀ fate ∈ s.fates, fate = .completes) :
    s.nextFate = .completes := by
  unfold State.nextFate
  split
  · rfl
  · rename_i fate rest hf
    exact h fate (hf ▸ List.mem_cons_self)

/-- `v` is `s` once a message of its own is whole on the wire, before the host does what follows the write. -/
structure State.Wrote (s v : State) (k : MessageKind) (items : List Item) : Prop where
  wire : v.wire = s.wire ++ [⟨k, messageBytes Config.pixelWireOrder items, .completes⟩]
  session : v.session = s.session
  transport : v.transport = s.transport
  program : v.program = s.program
  raster : v.raster = s.raster

theorem State.wrote_written (s : State) (k : MessageKind) (items : List Item) :
    s.Wrote ((s.presentAll (messageRequests items)).written k (messageBytes Config.pixelWireOrder items)) k items := by
  constructor <;> simp

theorem State.Running.canSend {s : State} {p : Phase} {ws : List Word} (h : s.Running p ws []) : s.CanSend :=
  ⟨⟨h.live, h.hung, h.raster, h.transport⟩, State.nextFate_of_completes h.fates⟩

/-- A written message moves the wire on, and the owner is still at work. -/
theorem State.Running.written {s : State} {p q : Phase} {ws : List Word} {rows : List (List Rgb)} {k : MessageKind}
    (h : s.Running p ws rows) (hq : p.next k = .next q) (items : List Item) :
    ((s.presentAll (messageRequests items)).written k (messageBytes Config.pixelWireOrder items)).Running q ws
      rows where
  live := by simpa using h.live
  hung := by simpa using h.hung
  transport := by simpa using h.transport
  turns := by simpa using h.turns
  fates fate hfate := h.fates fate (List.mem_of_mem_tail (by simpa using hfate))
  phase := (State.phase_add h.phase (State.wrote_written s k items).wire).trans hq
  current := by simpa using h.current
  raster := by simpa using h.raster

/-- What the host does after a write touches only the session, DisplayState, the rows due and the answer. -/
def OnlyAnswers (done : State → State) : Prop :=
  ∀ v, done v = { v with
    session := (done v).session, display := (done v).display, raster := (done v).raster, result := (done v).result }

theorem Finishes.onlyAnswers {k : MessageKind} {done : State → State} (h : Finishes k done) : OnlyAnswers done := by
  cases h <;> exact fun _ => rfl

theorem onlyAnswers_rowDone (rows : List (List Rgb)) : OnlyAnswers (State.rowDone rows) := by
  cases rows <;> exact fun _ => rfl

theorem Finishes.live {k : MessageKind} {done : State → State} (h : Finishes k done) {v : State}
    (hv : v.session ≠ .failed) : (done v).session ≠ .failed := by
  obtain ⟨-, hplain⟩ | ⟨o, reverse, -, rfl⟩ := h.session_display
  · rwa [(hplain v).1]
  · rw [State.orientationSet_session]
    split
    · decide
    · exact hv

theorem State.Running.answered {v : State} {p : Phase} {ws : List Word} {rows : List (List Rgb)}
    {done : State → State} (h : v.Running p ws rows) (hdone : OnlyAnswers done)
    (hlive : (done v).session ≠ .failed) : (done v).Running p ws (done v).raster := by
  have hv := hdone v
  generalize done v = t at hv hlive
  rw [hv]
  exact ⟨hlive, h.hung, h.transport, h.turns, h.fates, h.phase, h.current, rfl⟩

/-- The next word of the operation is no longer due once it is issued, nor is the displayBitmap call it may take. -/
theorem State.Running.issued {s : State} {p : Phase} {w : Word} {ws : List Word} {rows : List (List Rgb)}
    (h : s.Running p (w :: ws) rows) (calls : List BitmapCall) :
    ({ s with current := ws, bitmaps := calls } : State).Running p ws rows :=
  ⟨h.live, h.hung, h.transport, h.turns, h.fates, h.phase, rfl, h.raster⟩

theorem State.Running.owner_turn {s : State} {p : Phase} {ws : List Word} {rows : List (List Rgb)}
    (h : s.Running p ws rows) : s.turns.head? ≠ some .caller ∧ s.turns.tail = s.turns := by
  simp [h.turns]

/-- A step that issues the next word of the operation writes its message. -/
theorem State.Running.step_message {s : State} {p q : Phase} {i : Instr} {ws : List Word} {k : MessageKind}
    {items : List Item} {done : State → State} {calls : List BitmapCall}
    (h : s.Running p (encode i :: ws) []) (hk : s.messageOf i = some k) (hq : p.next k = .next q)
    (hdone : Finishes k done)
    (he : exec i { s with current := ws } =
      ({ s with current := ws, bitmaps := calls } : State).sendCommand k items done) :
    ∃ v, step s = .next (done v) ∧ s.Wrote v k items ∧ v.bitmaps = calls ∧
      (done v).Running q ws (done v).raster := by
  have hissued := h.issued calls
  have hwritten := hissued.written hq items
  obtain ⟨hturn, htail⟩ := h.owner_turn
  obtain ⟨wire, session, transport, program, raster⟩ :=
    State.wrote_written { s with current := ws, bitmaps := calls } k items
  refine ⟨_, ?_, ⟨wire, session, transport, program, raster⟩, by simp,
    hwritten.answered hdone.onlyAnswers (hdone.live hwritten.live)⟩
  rw [step_current hturn h.hung h.raster (decode_encode i) (State.admits_of_phase hk h.live h.hung h.phase hq)
    h.current, htail]
  exact he.trans (hissued.canSend.sendCommand k items done)

/-- A step while rows are due writes the next one. -/
theorem State.Running.step_row {s : State} {row : List Rgb} {rows : List (List Rgb)}
    (h : s.Running (.rows rows.length) [] (row :: rows)) :
    ∃ v, step s = .next (v.rowDone rows) ∧ s.Wrote v .row (rowItems row) ∧ v.bitmaps = s.bitmaps ∧
      (v.rowDone rows).Running (Phase.afterRow rows.length) [] rows := by
  have hwritten := h.written (k := .row) rfl (rowItems row)
  obtain ⟨hturn, htail⟩ := h.owner_turn
  refine ⟨_, ?_, State.wrote_written s .row (rowItems row), by simp, ?_⟩
  · rw [Sys2Proof.Machine.step_row h.raster h.hung hturn, htail]
    exact State.send_completes h.live h.hung h.transport (State.nextFate_of_completes h.fates)
  · have hrow := hwritten.answered (onlyAnswers_rowDone rows) (by rw [State.rowDone_session]; exact hwritten.live)
    rwa [State.rowDone_raster] at hrow

/-! ### Whole operations -/

/-- Where the step is the same, so is the run. -/
theorem run_congr (M : Host.Core) {s t : M.State} (h : M.step s = M.step t) (k : Nat) :
    M.run (k + 1) s = M.run (k + 1) t := by
  simp only [Host.Core.run, h]

/-- The step that starts an operation issues its first word, so the words may as well be due already. -/
theorem step_start {s : State} {ws : List Word} {ops : List (List Word)} (ht : s.turns = []) (hh : s.hung = false)
    (hr : s.raster = []) (hc : s.current = []) (hm : s.midOperation = false) (hp : s.program = ws :: ops)
    (hws : ws ≠ []) : step s = step { s with current := ws, program := ops } := by
  obtain ⟨w, ws, rfl⟩ := List.exists_cons_of_ne_nil hws
  have hturn : s.turns.head? ≠ some .caller := by simp [ht]
  have hfetch : ({ s with current := w :: ws, program := ops } : State).fetch = s.fetch := by
    rw [State.fetch_owner hturn, State.fetch_owner (s := { s with current := w :: ws, program := ops }) hturn,
      State.ownerAction_program (s := { s with turns := s.turns.tail }) hh hr hc hm hp]
    exact State.ownerAction_current hh hr rfl
  simp only [step, hfetch]

/-- A host operation from `s` to `t` that answered success: its messages are on the wire, and the session is between
two operations again. -/
def State.Succeeded (s t : State) (msgs : List (List Byte)) (calls : List BitmapCall) : Prop :=
  t.Quiet ∧ t.wire.map Written.bytes = s.wire.map Written.bytes ++ msgs ∧ t.result = some .success ∧
    t.program = s.program ∧ t.bitmaps = calls

theorem State.Running.quiet {s : State} (h : s.Running .idle [] []) (hs : s.session = .ready) : s.Quiet :=
  ⟨hs, h.hung, h.raster, h.current, h.turns, h.transport, h.phase⟩

/-- An operation of one message of its own. -/
theorem State.Running.run_single {s : State} {i : Instr} {k : MessageKind} {items : List Item}
    {calls : List BitmapCall} (h : s.Running .idle [encode i] []) (hs : s.session = .ready) (hb : s.bitmaps = calls)
    (hk : s.messageOf i = some k) (hq : Phase.idle.next k = .next .idle) (hdone : Finishes k State.succeed)
    (he : ∀ u, exec i u = u.sendCommand k items State.succeed) :
    ∃ t, Host.Core.run Sys2Proof.core 1 s = .next t ∧
      s.Succeeded t [messageBytes Config.pixelWireOrder items] calls := by
  obtain ⟨v, hstep, hv, hbitmaps, hrun⟩ := h.step_message hk hq hdone (he _)
  rw [State.succeed_raster, hv.raster, h.raster] at hrun
  exact ⟨_, run_step Sys2Proof.core 0 hstep, hrun.quiet (hv.session.trans hs), by simp [hv.wire], rfl, hv.program,
    hbitmaps.trans hb⟩

/-- The two messages of setOrientation, where the wire takes them. -/
theorem State.Running.run_setOrientation {s : State} {o : Orientation} {reverse : Bool} {p q r : Phase}
    (h : s.Running p ((HostCall.setOrientation o reverse).words Config.orientParamSlot) [])
    (hq : p.next .geometryReset = .next q) (hr : q.next (.setOrientation o reverse) = .next r) :
    ∃ t, Host.Core.run Sys2Proof.core 2 s = .next t ∧ t.Running r [] [] ∧
      t.wire = s.wire ++ [⟨.geometryReset, geometryResetMessage, .completes⟩,
        ⟨.setOrientation o reverse, orientationMessage Config.orientParamSlot o reverse, .completes⟩] ∧
      t.session = (if s.session = .uninitialized ∧ t.initWritten = true then .ready else s.session) ∧
      t.display = some (displayFor o reverse) ∧ t.result = some .success ∧ t.transport = s.transport ∧
      t.program = s.program ∧ t.bitmaps = s.bitmaps := by
  obtain ⟨p1, p2, p3, p4, after, hinstr, hoperand⟩ := orientationInstr_operand Config.orientParamSlot o reverse
  have h' : s.Running p [encode .geometryReset, encode (.setOrientation p1 p2 p3 p4 after)] [] := by
    rw [← hinstr]; exact h
  obtain ⟨u, hstep, hu, ubitmaps, hrun⟩ := h'.step_message rfl hq .geometryReset rfl
  rw [State.continueOperation_raster, hu.raster, h.raster] at hrun
  obtain ⟨v, hstep', hv, vbitmaps, hrun'⟩ := hrun.step_message (by simp [State.messageOf, hoperand]) hr
    (.setOrientation o reverse) (exec_setOrientation_operand hoperand _)
  rw [State.orientationSet_raster, hv.raster, State.continueOperation_raster, hu.raster, h.raster] at hrun'
  have hwire : v.wire = s.wire ++ [⟨.geometryReset, geometryResetMessage, .completes⟩,
      ⟨.setOrientation o reverse, orientationMessage Config.orientParamSlot o reverse, .completes⟩] := by
    rw [hv.wire, State.continueOperation_wire, hu.wire, geometryResetItems_bytes, setOrientationItems_bytes]
    simp
  have hsession : v.session = s.session := hv.session.trans hu.session
  refine ⟨_, (run_step Sys2Proof.core 1 hstep).trans (run_step Sys2Proof.core 0 hstep'), hrun', hwire, ?_, rfl, rfl,
    hv.transport.trans hu.transport, hv.program.trans hu.program, vbitmaps.trans ubitmaps⟩
  rw [State.orientationSet_session, hsession]
  rfl

/-- The rows of a bitmap, by induction on those after the next one. -/
theorem State.Running.run_rows {s : State} {row : List Rgb} {rows : List (List Rgb)}
    (h : s.Running (.rows rows.length) [] (row :: rows)) (hs : s.session = .ready) :
    ∃ t, Host.Core.run Sys2Proof.core (rows.length + 1) s = .next t ∧
      s.Succeeded t ((row :: rows).map fun row => messageBytes Config.pixelWireOrder (rowItems row)) s.bitmaps := by
  induction rows generalizing s row with
  | nil =>
    obtain ⟨v, hstep, hv, hbitmaps, hrun⟩ := h.step_row
    exact ⟨_, run_step Sys2Proof.core 0 hstep, hrun.quiet (hv.session.trans hs), by simp [hv.wire], rfl, hv.program,
      hbitmaps⟩
  | cons row' rows ih =>
    obtain ⟨v, hstep, hv, hbitmaps, hrun⟩ := h.step_row
    obtain ⟨t, ht, hquiet, hwire, hresult, hprogram, hcalls⟩ := ih hrun (hv.session.trans hs)
    exact ⟨t, (run_step Sys2Proof.core _ hstep).trans ht, hquiet, by simp [hwire, hv.wire], hresult,
      hprogram.trans hv.program, hcalls.trans hbitmaps⟩

/-- A bitmap: its header, after which its rows are due, and then its rows. -/
theorem State.Running.run_displayBitmap {s : State} {x y : Int} {img : Image} {calls : List BitmapCall}
    (h : s.Running .idle [encode (bitmapInstr x y img.width img.height)] []) (hs : s.session = .ready)
    (himg : img.Drawable) (hb : s.bitmaps = { x := x, y := y, decoded := .image img } :: calls) :
    ∃ t, Host.Core.run Sys2Proof.core (img.height + 1) s = .next t ∧
      s.Succeeded t (messageBytes Config.pixelWireOrder (headerFor x y img.width img.height) ::
        img.rows.map fun row => messageBytes Config.pixelWireOrder (rowItems row)) calls := by
  obtain ⟨-, hne, hwidths⟩ := id himg
  obtain ⟨row, rows, hrows⟩ := List.exists_cons_of_ne_nil hne
  have hheight : img.height = rows.length + 1 := by rw [Image.height, hrows, List.length_cons]
  obtain ⟨v, hstep, hv, hbitmaps, hrun⟩ := h.step_message (k := .bitmapHeader img.height) (q := .rows rows.length)
    (by simp [bitmapInstr, State.messageOf, hb]) (by rw [hheight]; rfl) (.header img.rows hne)
    (exec_displayBitmap_drawable (s := { s with current := [] }) hb rfl himg (Image.fills_rectangle hwidths x y))
  rw [State.rasterDue_raster] at hrun
  rw [hrows] at hstep hrun
  obtain ⟨t, ht, hquiet, hwire, hresult, hprogram, hcalls⟩ := hrun.run_rows (hv.session.trans hs)
  refine ⟨t, ?_, hquiet, ?_, hresult, hprogram.trans hv.program, hcalls.trans hbitmaps⟩
  · rw [hheight]
    exact (run_step Sys2Proof.core _ hstep).trans ht
  · rw [hwire, hrows]
    simp [hv.wire]

theorem HostCall.messages_ne_nil {c : HostCall} (h : c.Drawable) (slot : OrientParamSlot) : c.messages slot ≠ [] := by
  cases c with
  | displayBitmap x y decoded =>
    cases decoded with
    | image img => simp [HostCall.messages]
    | failed => exact h.elim
  | _ => simp [HostCall.messages]

theorem HostCall.words_ne_nil (c : HostCall) (slot : OrientParamSlot) : c.words slot ≠ [] := by
  cases c with
  | displayBitmap x y decoded => cases decoded <;> simp [HostCall.words, HostCall.instrs]
  | _ => simp [HostCall.words, HostCall.instrs]

/-- Any operation but init, its words due between two operations of a Ready session. -/
theorem State.Running.run_hostCall {s : State} {c : HostCall} {calls : List BitmapCall}
    (h : s.Running .idle (c.words Config.orientParamSlot) []) (hs : s.session = .ready) (hc : c ≠ .init)
    (hd : c.Drawable) (hb : s.bitmaps = c.bitmaps ++ calls) :
    ∃ t, Host.Core.run Sys2Proof.core (c.messages Config.orientParamSlot).length s = .next t ∧
      s.Succeeded t (c.bytes Config.pixelWireOrder Config.orientParamSlot) calls := by
  cases c with
  | init => exact absurd rfl hc
  | clear => exact h.run_single hs hb rfl rfl .clear fun _ => rfl
  | toBlack => exact h.run_single hs hb rfl rfl .toBlack fun _ => rfl
  | screenOff => exact h.run_single hs hb rfl rfl .screenOff fun _ => rfl
  | screenOn => exact h.run_single hs hb rfl rfl .screenOn fun _ => rfl
  | setOrientation o reverse =>
    obtain ⟨t, ht, hrun, hwire, hsession, -, hresult, -, hprogram, hbitmaps⟩ := h.run_setOrientation rfl rfl
    have hready : t.session = .ready := by rw [hsession, hs]; rfl
    exact ⟨t, ht, hrun.quiet hready, by simp [hwire, setOrientation_bytes], hresult, hprogram, hbitmaps.trans hb⟩
  | displayBitmap x y decoded =>
    cases decoded with
    | failed => exact hd.elim
    | image img =>
      have hbytes : (HostCall.displayBitmap x y (.image img)).bytes Config.pixelWireOrder Config.orientParamSlot =
          messageBytes Config.pixelWireOrder (headerFor x y img.width img.height) ::
            img.rows.map fun row => messageBytes Config.pixelWireOrder (rowItems row) := by
        rw [displayBitmap_bytes, headerFor_bytes_eq_rectangleFrame]
      have hlength : ((HostCall.displayBitmap x y (.image img)).messages Config.orientParamSlot).length =
          img.height + 1 := by simp [HostCall.messages, Image.height]
      rw [hbytes, hlength]
      exact h.run_displayBitmap hs hd hb

theorem State.Quiet.midOperation {s : State} (h : s.Quiet) : s.midOperation = false := by
  obtain ⟨hs, hh, -, -, -, -, hp⟩ := h
  simp [State.midOperation, hh, hp, Phase.inside]

/-- Settles O47: the step that starts the operation issues its first word, so the run is that of the operation with its
words due. -/
theorem hostOperationWritesItsMessages : Obligations.HostOperationWritesItsMessages := by
  intro s c ops calls hquiet hc hd hp hb hf
  obtain ⟨hs, hh, hr, hcurrent, hturns, ht, hphase⟩ := id hquiet
  have hstart := step_start hturns hh hr hcurrent hquiet.midOperation hp (c.words_ne_nil _)
  have hrun : ({ s with current := c.words Config.orientParamSlot, program := ops } : State).Running .idle
      (c.words Config.orientParamSlot) [] :=
    ⟨hs ▸ nofun, hh, ht, hturns, hf, hphase, rfl, hr⟩
  obtain ⟨t, hrunTo, hquiet', hwire, hresult, hprogram, hbitmaps⟩ := hrun.run_hostCall hs hc hd hb
  obtain ⟨n, hn⟩ := Nat.exists_eq_succ_of_ne_zero (mt List.length_eq_zero_iff.mp (HostCall.messages_ne_nil hd _))
  rw [hn] at hrunTo ⊢
  exact ⟨t, (run_congr Sys2Proof.core hstart n).trans hrunTo, hquiet', hwire, hresult, hprogram, hbitmaps⟩

/-! ### init -/

/-- A Reset that is due opens the Transport first, so it may as well be open already (log entry 9). -/
theorem step_opened {s : State} {ws : List Word} (hturn : s.turns.head? ≠ some .caller) (hs : s.session ≠ .failed)
    (hh : s.hung = false) (hr : s.raster = []) (ho : s.transport = none → s.openFails = false)
    (hp : s.phase = .next .start) (hc : s.current = encode .reset :: ws) : step s = step s.opened := by
  have hadmits : s.admits .reset = .next () := State.admits_of_phase (k := .reset) rfl hs hh hp rfl
  have hadmits' : s.opened.admits .reset = .next () := by
    rw [State.admits_congr (s := s) (by simp) (by simp) (by simp) (by simp), hadmits]
  have hissued : ({ s with current := ws, turns := s.turns.tail } : State).opened =
      { s.opened with current := ws, turns := s.opened.turns.tail } := by
    cases ht : s.transport <;> simp only [State.opened, ht]
  rw [step_current hturn hh hr (decode_encode .reset) hadmits hc,
    step_current (s := s.opened) (by simpa using hturn) (by simpa using hh) (by simpa using hr) (decode_encode .reset)
      hadmits' (by simpa using hc), ← hissued,
    exec_reset_opened (s := { s with current := ws, turns := s.turns.tail }) hs hh ho,
    exec_reset_open (by simpa using hs) (by simpa using hh) (by simp)]

/-- init on an open Transport: Reset, and then setOrientation(Portrait) (43_device_commands.md R131). -/
theorem State.Running.run_init {s : State} (h : s.Running .start (HostCall.init.words Config.orientParamSlot) [])
    (hs : s.session = .uninitialized) (hw : s.wire = []) :
    ∃ t, Host.Core.run Sys2Proof.core 3 s = .next t ∧ t.session = .ready ∧
      t.display = some (displayFor .portrait false) ∧ t.transport = s.transport ∧
      t.wire.map Written.bytes = HostCall.init.bytes Config.pixelWireOrder Config.orientParamSlot ∧
      t.result = some .success ∧ t.program = s.program := by
  have he : exec .reset { s with current := (HostCall.setOrientation .portrait false).words Config.orientParamSlot } =
      ({ s with current := (HostCall.setOrientation .portrait false).words Config.orientParamSlot } : State).sendCommand
        .reset (plainFrame 0xFF#8) State.continueOperation :=
    exec_reset_open (s := { s with current := _ }) h.live h.hung h.transport
  obtain ⟨v, hstep, hv, -, hrun⟩ := h.step_message (k := .reset) (q := .resetSent) rfl rfl .reset he
  rw [State.continueOperation_raster, hv.raster, h.raster] at hrun
  obtain ⟨t, ht, -, hwire, hsession, hdisplay, hresult, htransport, hprogram, -⟩ :=
    hrun.run_setOrientation (q := .bootGeometry) (r := .idle) rfl rfl
  have hwire' : t.wire = [⟨.reset, messageBytes Config.pixelWireOrder (plainFrame 0xFF#8), .completes⟩,
      ⟨.geometryReset, geometryResetMessage, .completes⟩, ⟨.setOrientation .portrait false,
        orientationMessage Config.orientParamSlot .portrait false, .completes⟩] := by
    rw [hwire, State.continueOperation_wire, hv.wire, hw]
    rfl
  have hinit : t.initWritten = true := by simp [State.initWritten, State.kinds, hwire', initKinds]
  refine ⟨t, (run_step Sys2Proof.core 2 hstep).trans ht, ?_, hdisplay, htransport.trans hv.transport, ?_, hresult,
    hprogram.trans hv.program⟩
  · rw [hsession, if_pos ⟨hv.session.trans hs, hinit⟩]
  · rw [hwire', init_bytes, setOrientation_bytes]
    rfl

/-- Settles O46: the run is that of init with its words due on a Transport already open. -/
theorem initRuns : Obligations.InitRuns := by
  intro s ops hs hw hh hr ho hc hturns hf hp
  have hphase : s.phase = .next .start := State.phase_of_wire_nil hw
  have hmid : s.midOperation = false := by simp [State.midOperation, hh, hphase, Phase.inside]
  have hlive : s.session ≠ .failed := by rw [hs]; decide
  have hstart := step_start hturns hh hr hc hmid hp (HostCall.init.words_ne_nil _)
  have hopened := step_opened (s := { s with current := HostCall.init.words Config.orientParamSlot, program := ops })
    (by simp [hturns]) hlive hh hr ho hphase rfl
  have hrun : ({ s with current := HostCall.init.words Config.orientParamSlot, program := ops } : State).opened.Running
      .start (HostCall.init.words Config.orientParamSlot) [] :=
    ⟨by simpa using hlive, by simpa using hh, by simp, by simpa using hturns, by simpa using hf,
      (State.phase_eq_of_wire (by simp)).trans hphase, by simp, by simpa using hr⟩
  obtain ⟨t, ht, hsession, hdisplay, htransport, hwire, hresult, hprogram⟩ :=
    hrun.run_init (by simpa using hs) (by simpa using hw)
  refine ⟨t, (run_congr Sys2Proof.core (hstart.trans hopened) 2).trans ht, hsession, hdisplay, ?_, ?_, hresult,
    by simpa using hprogram⟩
  · rw [htransport]
    simp [TransportParams.host]
  · rw [hwire, init_bytes, setOrientation_bytes]
    rfl

end Sys2Proof.Machine
end

section
/-! The obligations of 60_exceptions.md: a write that never completes blocks its owner and no one else, and a caller that
does not wait puts nothing between the messages of the operation in progress. -/

namespace Sys2Proof.Machine

/-! ### A write in flight -/

/-- While a write is in flight every message of a device command is a fault, whether or not a bitmap's rows are due. -/
theorem State.sendCommand_hung {s : State} (hs : s.session ≠ .failed) (hh : s.hung = true) (k : MessageKind)
    (items : List Item) (done : State → State) : s.sendCommand k items done = .fault .operationInFlight := by
  by_cases hr : s.raster = []
  · rw [State.sendCommand_eq hr, State.send_blocked (State.writeBlocked_hung hs hh)]
  · exact State.sendCommand_inRaster hr

/-- Where every message is one fault, every device command that would write one is that fault, but for DisplayBitmap,
which looks at its image first. -/
theorem exec_of_sendCommand_faults {s : State} {i : Instr} {k : MessageKind} {f : Fault}
    (hsend : ∀ k' items done, s.sendCommand k' items done = .fault f) (hreset : i = .reset → exec .reset s = .fault f)
    (hk : s.messageOf i = some k) (hi : ∀ x y x2 y2, i ≠ .displayBitmap x y x2 y2) : exec i s = .fault f := by
  cases i with
  | packCmd | packU16 | packColor | reservedOp11 | setBrightness => cases hk
  | reset => exact hreset rfl
  | clear | toBlack | screenOff | screenOn | geometryReset => exact hsend _ _ _
  | setOrientation p1 p2 p3 p4 after =>
    cases ho : orientationOperand p1 p2 p3 p4 after with
    | none => simp [State.messageOf, ho] at hk
    | some or => rw [exec_setOrientation_operand ho]; exact hsend _ _ _
  | displayBitmap x y x2 y2 => exact absurd rfl (hi x y x2 y2)

/-- What an instruction that answers a next state leaves alone while a write is in flight. -/
theorem exec_next_of_hung {s t : State} {i : Instr} (hh : s.hung = true) (h : exec i s = .next t) :
    t.hung = true ∧ t.session = s.session ∧ t.wire = s.wire := by
  obtain ⟨q, rfl⟩ | ⟨call, rest, -, -, rfl⟩ | ⟨-, hfree, -⟩ | ⟨k, v, items, done, -, -, hv, -, hsend⟩ := exec_next h
  · exact ⟨hh, rfl, rfl⟩
  · exact ⟨hh, rfl, rfl⟩
  · rw [hh] at hfree; cases hfree
  · obtain ⟨-, -, -, vhung, -⟩ := hv.fields
    obtain ⟨⟨-, hfree, -⟩, -⟩ := State.send_next hsend
    rw [vhung, hh] at hfree; cases hfree

/-- No step takes a write in flight back, or adds to the wire after it. -/
theorem step_next_of_hung {s t : State} (hh : s.hung = true) (h : step s = .next t) :
    t.hung = true ∧ t.session = s.session ∧ t.wire = s.wire := by
  obtain ⟨u, hu, hcase⟩ := step_next h
  obtain ⟨uwire, usession, -, uhung, -⟩ := hu.fields
  obtain rfl | ⟨px, rest, -, hfree, -⟩ | ⟨w, i, -, -, hexec, -⟩ := hcase
  · exact ⟨uhung.trans hh, usession, uwire⟩
  · rw [hh] at hfree; cases hfree
  · obtain ⟨hung, session, wire⟩ := exec_next_of_hung (uhung.trans hh) hexec
    exact ⟨hung, session.trans usession, wire.trans uwire⟩

/-- The owner of a write in flight waits for it. -/
theorem step_owner_hung {s : State} (hh : s.hung = true) (ht : s.turns.head? ≠ some .caller) :
    step s = .next { s with turns := s.turns.tail } := by
  have howner : ({ s with turns := s.turns.tail } : State).ownerAction = (.wait, { s with turns := s.turns.tail }) := by
    simp [State.ownerAction, hh]
  simp only [step, State.fetch_owner ht, howner]

theorem State.busy_of_hung {s : State} (hh : s.hung = true) : s.busy = true := by
  simp [State.busy, State.midOperation, hh]

/-- A request word whose operation is not the reserved one presents its request, in every state. -/
theorem decode_request_presents {q : RequestWord} (h : q.extractLsb' 72 2 ≠ 3#2) :
    ∃ i r, decode (.request q) = .ok i ∧ ofHostOperation i = false ∧ ∀ s, exec i s = .next (s.present r) := by
  have hop : ∀ op : BitVec 2, op ≠ 3#2 → op = 0#2 ∨ op = 1#2 ∨ op = 2#2 := by decide
  obtain hcmd | hu16 | hcolor := hop _ h
  · exact ⟨_, _, decode_request_cmd hcmd, rfl, exec_packCmd _ _ _ _ _⟩
  · exact ⟨_, _, decode_request_u16 hu16, rfl, exec_packU16 _⟩
  · exact ⟨_, _, decode_request_color hcolor, rfl, exec_packColor _ _ _⟩

/-- Settles O34: the owner waits, every message finds the write in flight, and a caller's request does not look for
it. -/
theorem hungWriteBlocksOwner : Obligations.HungWriteBlocksOwner := by
  refine ⟨fun s => step_owner_hung, fun s t => step_next_of_hung, fun s i k hh hs hk hi => ?_,
    fun s x y img rest hh hs hb himg => ?_, fun s q ops hh ht hp hq => ?_⟩
  · exact exec_of_sendCommand_faults (State.sendCommand_hung hs hh)
      (fun _ => exec_reset_blocked (State.writeBlocked_hung hs hh)) hk hi
  · obtain ⟨-, -, hwidths⟩ := id himg
    exact (exec_displayBitmap_drawable hb rfl himg (Image.fills_rectangle hwidths x y)).trans
      (State.sendCommand_hung (s := { s with bitmaps := rest }) hs hh _ _ _)
  · obtain ⟨i, r, hd, ho, hexec⟩ := decode_request_presents hq
    obtain ⟨-, hinterrupt, -⟩ := stepRunsDecodedInstruction
    obtain ⟨-, hstep⟩ := hinterrupt s (.request q) [] ops i hd hp (.inl ⟨ht, State.busy_of_hung hh⟩)
    exact ⟨_, fce r, (hstep ho).trans (hexec _), rfl, rfl, hh, rfl⟩

/-! ### What a write that never completes leaves -/

/-- Settles O56: the instruction is the same message's write in both, so what the one that never completes leaves is read
off `State.writeHung`; so is what a row's leaves. -/
theorem hungWriteKeepsOperation : Obligations.HungWriteKeepsOperation := by
  refine ⟨fun s u i rest hs h hw => ?_, fun s row rest hr hs hh ht hf hturn => ?_⟩
  · obtain ⟨k, v, items, done, hv, hdone, heq⟩ := writesMessage_of_wire_ne h hw
    obtain ⟨vwire, vsession, vdisplay, -, vraster, -, -, -, vcurrent, vprogram, -⟩ := hv.fields
    have vresult : v.result = s.result := by rw [hv.1]
    obtain ⟨⟨hsession, hfree, htransport⟩, hu⟩ := State.send_next_completes rfl ((heq _).symm.trans h)
    have hhangs : exec i s = ({ v with fates := .hangs :: rest } : State).send k items done := by
      rw [← hs]; exact heq s.fates
    obtain ⟨uwire, uresponses, uports, ubitmaps, utransport⟩ := hu ▸ hdone.written_fields
      { v with fates := .completes :: rest } (messageRequests items) (messageBytes Config.pixelWireOrder items)
    refine ⟨_, k, messageBytes Config.pixelWireOrder items, Config.hungPrefix v.draws, by rw [uwire, vwire],
      hhangs.trans (State.send_hangs hsession hfree htransport rfl), ?_⟩
    simp [vwire, vsession, vdisplay, vraster, vcurrent, vresult, vprogram, uresponses, uports, ubitmaps, utransport,
      State.presentAll_responses, State.presentAll_ports]
  · refine ⟨_, Config.hungPrefix s.draws, (step_row hr hh hturn).trans (State.send_hangs hs hh ht hf), ?_⟩
    simp

/-! ### A caller that does not wait -/

/-- A word of another operation, or the wait where there is none, is taken from the program alone. -/
theorem State.interruptingWord_spec (s : State) :
    ∃ program, s.interruptingWord = (.wait, { s with program := program }) ∨
      ∃ w, s.interruptingWord = (.interrupt w, { s with program := program }) := by
  unfold State.interruptingWord
  split
  · exact ⟨_, .inl rfl⟩
  · exact ⟨_, .inl rfl⟩
  · exact ⟨_, .inr ⟨_, rfl⟩⟩
  · exact ⟨_, .inr ⟨_, rfl⟩⟩

/-- Everything a caller's step can do while an operation is in progress, where it answers a next state: a wait or one
request, and nothing taken from the operation in progress. -/
theorem step_next_of_caller_busy {s t : State} (ht : s.turns.head? = some .caller) (hb : s.busy = true)
    (h : step s = .next t) :
    ∃ program, t = { s with turns := s.turns.tail, program := program } ∨
      ∃ q, t = ({ s with turns := s.turns.tail, program := program } : State).present q := by
  obtain ⟨program, hwait | ⟨w, hword⟩⟩ := State.interruptingWord_spec { s with turns := s.turns.tail }
  · simp only [step, State.fetch_caller_busy ht hb, hwait] at h
    cases h
    exact ⟨program, .inl rfl⟩
  · simp only [step, State.fetch_caller_busy ht hb, hword] at h
    obtain ⟨i, -, ho, hexec⟩ := runInterrupting_next h
    exact ⟨program, .inr (exec_of_not_ofHostOperation ho hexec)⟩

/-- Settles O57: a caller's step takes its word from the program, and a request drives only ports and responses. -/
theorem callerCannotInterleave : Obligations.CallerCannotInterleave := by
  intro s t ht hb h
  obtain ⟨program, rfl | ⟨q, rfl⟩⟩ := step_next_of_caller_busy ht hb h
  · simp
  · simp

end Sys2Proof.Machine
end

section
/-! The obligations of 70_reset_and_hazards.md: the order of messages on the wire, that every step keeps it, and the
device commands that a closed Transport or a stream that stands elsewhere refuses. -/

namespace Sys2Proof.Machine

/-! ### Which messages a phase takes -/

theorem Phase.start_next {k : MessageKind} {q : Phase} :
    Phase.start.next k = .next q ↔ k = .reset ∧ q = .resetSent := by
  simp only [Phase.next]
  split <;> simp_all [eq_comm]

theorem Phase.resetSent_next {k : MessageKind} {q : Phase} :
    Phase.resetSent.next k = .next q ↔ k = .geometryReset ∧ q = .bootGeometry := by
  simp only [Phase.next]
  split <;> simp_all [eq_comm]

theorem Phase.bootGeometry_next {k : MessageKind} {q : Phase} :
    Phase.bootGeometry.next k = .next q ↔ k = .setOrientation .portrait false ∧ q = .idle := by
  simp only [Phase.next]
  split <;> simp_all [eq_comm]

theorem Phase.geometrySent_next {k : MessageKind} {q : Phase} :
    Phase.geometrySent.next k = .next q ↔ (∃ o reverse, k = .setOrientation o reverse) ∧ q = .idle := by
  cases k <;> simp [Phase.next, eq_comm]

theorem Phase.rows_next {more : Nat} {k : MessageKind} {q : Phase} :
    (Phase.rows more).next k = .next q ↔ k = .row ∧ q = Phase.afterRow more := by
  simp only [Phase.next]
  split <;> simp_all [eq_comm]

/-! ### Every step keeps the order of the wire -/

/-- The wire obeys the order rules and the session agrees with it: what the invariant says of the order. -/
def State.Ordered (s : State) : Prop := ∃ p, s.phase = .next p ∧ s.Agrees p

theorem State.agrees_of_failed {s : State} (h : s.session = .failed) (p : Phase) : s.Agrees p :=
  fun live _ => absurd h live

theorem State.agrees_of_hung {s : State} (h : s.hung = true) (p : Phase) : s.Agrees p :=
  fun _ free => by rw [h] at free; cases free

/-- A Ready session agrees with the phase after a header or a row where exactly the rows it leaves are due. -/
theorem State.agrees_afterRow {s : State} {n : Nat} (hs : s.session = .ready) (hr : s.raster.length = n) :
    s.Agrees (Phase.afterRow n) := by
  intro _ _
  cases n with
  | zero => exact .inr (.inl ⟨hs, .inl rfl, List.length_eq_zero_iff.mp hr⟩)
  | succ more => exact .inr (.inr ⟨hs, more, rfl, hr⟩)

/-- The order looks at the wire, the rows due, a write in flight and the session alone, and asks nothing of a Failed
one. -/
theorem State.Ordered.congr {s t : State} (h : s.Ordered) (wire : t.wire = s.wire) (hung : t.hung = s.hung)
    (raster : t.raster = s.raster) (session : t.session = s.session ∨ t.session = .failed) : t.Ordered := by
  obtain ⟨p, hp, hagrees⟩ := h
  refine ⟨p, (State.phase_eq_of_wire wire).trans hp, ?_⟩
  obtain session | failed := session
  · unfold State.Agrees
    rwa [session, hung, raster]
  · exact State.agrees_of_failed failed p

theorem OnlyAnswers.fields {done : State → State} (h : OnlyAnswers done) (v : State) :
    (done v).wire = v.wire ∧ (done v).transport = v.transport := by
  rw [h v]; simp

/-- A write of a message that the phase takes keeps the order, if what follows a completed one does. -/
theorem State.ordered_of_send {s t : State} {p q : Phase} {k : MessageKind} {items : List Item}
    {done : State → State} (hp : s.phase = .next p) (hq : p.next k = .next q) (hdone : OnlyAnswers done)
    (completed : ∀ v, s.Wrote v k items → (done v).Agrees q) (h : s.send k items done = .next t) : t.Ordered := by
  have moved (bytes fate) (hwire : t.wire = s.wire ++ [⟨k, bytes, fate⟩]) : t.phase = .next q :=
    (State.phase_add hp hwire).trans hq
  obtain ⟨-, ⟨-, rfl⟩ | ⟨-, rfl⟩ | ⟨-, rfl⟩⟩ := State.send_next h
  · have hv := State.wrote_written s k items
    exact ⟨q, moved _ _ ((hdone.fields _).1.trans hv.wire), completed _ hv⟩
  · exact ⟨q, moved _ .fails (by rw [State.writeFailed_wire, State.presentAll_wire]), State.agrees_of_failed rfl q⟩
  · exact ⟨q, moved _ .hangs (by rw [State.writeHung_wire, State.presentAll_wire]), State.agrees_of_hung rfl q⟩

/-- A row that is due is one that the wire takes. -/
theorem State.Ordered.writeRow {s t : State} {px : List Rgb} {rest : List (List Rgb)} (h : s.Ordered)
    (hr : s.raster = px :: rest) (hrow : s.writeRow px rest = .next t) : t.Ordered := by
  obtain ⟨p, hp, hagrees⟩ := h
  obtain ⟨⟨live, free, -⟩, -⟩ := State.send_next hrow
  obtain ⟨-, -, hnil⟩ | ⟨-, -, hnil⟩ | ⟨hs, more, rfl, hlen⟩ := hagrees live free
  · rw [hr] at hnil; cases hnil
  · rw [hr] at hnil; cases hnil
  · have hrest : rest.length = more := by simpa [hr] using hlen
    refine State.ordered_of_send hp (Phase.rows_next.mpr ⟨rfl, rfl⟩) (onlyAnswers_rowDone rest) (fun v hv => ?_) hrow
    exact State.agrees_afterRow (by simpa using hv.session.trans hs) (by simpa using hrest)

/-- During init the next message is the one of init's own that is due, and the third makes the session Ready. -/
theorem State.Wrote.agrees_of_boot {s v : State} {p q : Phase} {k : MessageKind} {items : List Item}
    {done : State → State} (hv : s.Wrote v k items) (hp : s.phase = .next p) (hboot : p.boot)
    (hs : s.session = .uninitialized) (hr : s.raster = []) (hq : p.next k = .next q) (hdone : Finishes k done) :
    (done v).Agrees q := by
  have vs := hv.session.trans hs
  have vr := hv.raster.trans hr
  obtain rfl | rfl | rfl := hboot
  · obtain ⟨rfl, rfl⟩ := Phase.start_next.mp hq
    cases hdone
    exact fun _ _ => .inl ⟨vs, .inr (.inl rfl), vr⟩
  · obtain ⟨rfl, rfl⟩ := Phase.resetSent_next.mp hq
    cases hdone
    exact fun _ _ => .inl ⟨vs, .inr (.inr rfl), vr⟩
  · obtain ⟨rfl, rfl⟩ := Phase.bootGeometry_next.mp hq
    cases hdone
    have hbefore : s.kinds = [.reset, .geometryReset] := by simpa using Phase.run_start hp
    have hinit : v.initWritten = true := by
      rw [State.initWritten, State.kinds_add hv.wire, hbefore]
      rfl
    exact State.agrees_afterRow (n := 0) (by simp [vs, hinit]) (by simp [vr])

/-- Between two operations, and inside a handshake, a message leaves the session Ready, with the rows due that its kind
announces. -/
theorem State.Wrote.agrees_of_ready {s v : State} {p q : Phase} {k : MessageKind} {items : List Item}
    {done : State → State} (hv : s.Wrote v k items) (hp : p = .idle ∨ p = .geometrySent) (hs : s.session = .ready)
    (hr : s.raster = []) (hq : p.next k = .next q) (hdone : Finishes k done) : (done v).Agrees q := by
  have vs := hv.session.trans hs
  have vr := hv.raster.trans hr
  obtain rfl | rfl := hp
  · cases hdone with
    | reset | setOrientation => cases hq
    | clear | toBlack | screenOff | screenOn => cases hq; exact fun _ _ => .inr (.inl ⟨vs, .inl rfl, vr⟩)
    | geometryReset => cases hq; exact fun _ _ => .inr (.inl ⟨vs, .inr rfl, vr⟩)
    | header rows => cases hq; exact State.agrees_afterRow vs rfl
  · obtain ⟨⟨o, reverse, rfl⟩, rfl⟩ := Phase.geometrySent_next.mp hq
    cases hdone
    exact State.agrees_afterRow (n := 0) (by simp [vs]) (by simp [vr])

/-- An instruction that the wire lets stand keeps the order. -/
theorem State.Ordered.exec {s t : State} {i : Instr} (h : s.Ordered) (ha : s.admits i = .next ())
    (he : Machine.exec i s = .next t) : t.Ordered := by
  obtain ⟨r, rfl⟩ | ⟨call, rest, -, -, rfl⟩ | ⟨-, -, -, rfl⟩ | ⟨k, u, items, done, hk, hr, hu, hdone, hsend⟩ :=
    exec_next he
  · exact h.congr rfl rfl rfl (.inl rfl)
  · exact h.congr rfl rfl rfl (.inl rfl)
  · exact h.congr rfl rfl rfl (.inr rfl)
  · obtain ⟨uwire, usession, -, uhung, uraster, -⟩ := hu.fields
    obtain ⟨⟨live, free, -⟩, -⟩ := State.send_next hsend
    rw [usession] at live
    rw [uhung] at free
    obtain ⟨p, q, hp, hq⟩ := State.admits_phase ha hk (State.writeBlocked_eq_none.mpr ⟨live, free⟩)
    obtain ⟨p', hp', hagrees⟩ := h
    obtain rfl : p' = p := by rw [hp] at hp'; cases hp'; rfl
    have up := (State.phase_eq_of_wire uwire).trans hp
    have ur := uraster.trans hr
    refine State.ordered_of_send up hq hdone.onlyAnswers (fun v hv => ?_) hsend
    obtain ⟨hs, hboot, -⟩ | ⟨hs, hopen, -⟩ | ⟨-, more, -, hlen⟩ := hagrees live free
    · exact hv.agrees_of_boot up hboot (usession.trans hs) ur hq hdone
    · exact hv.agrees_of_ready hopen (usession.trans hs) ur hq hdone
    · simp [hr] at hlen

theorem State.Ordered.step {s t : State} (h : s.Ordered) (hstep : Machine.step s = .next t) : t.Ordered := by
  obtain ⟨u, hu, hcase⟩ := step_next hstep
  obtain ⟨uwire, usession, -, uhung, uraster, -⟩ := hu.fields
  have hordered : u.Ordered := h.congr uwire uhung uraster (.inl usession)
  obtain rfl | ⟨px, rest, hr, -, hrow⟩ | ⟨w, i, -, ha, hexec, -⟩ := hcase
  · exact hordered
  · exact hordered.writeRow (uraster.trans hr) hrow
  · exact hordered.exec ha hexec

/-! ### Every step keeps the Transport -/

/-- `t` has the Transport of `s`, or the one that init opens; and where it has written something, it is open. -/
structure KeepsTransport (s t : State) : Prop where
  params : t.transport = s.transport ∨ t.transport = some (s.transport.getD (TransportParams.host s.openPath))
  opened : t.wire = s.wire ∨ t.transport ≠ none

theorem KeepsTransport.of_send {s u t : State} {k : MessageKind} {items : List Item} {done : State → State}
    (hu : u.transport = s.transport ∨ u.transport = some (s.transport.getD (TransportParams.host s.openPath)))
    (hdone : OnlyAnswers done) (h : u.send k items done = .next t) : KeepsTransport s t := by
  obtain ⟨⟨-, -, hopen⟩, ht⟩ := State.send_next h
  have hkeep : t.transport = u.transport := by
    obtain ⟨-, rfl⟩ | ⟨-, rfl⟩ | ⟨-, rfl⟩ := ht
    · rw [(hdone.fields _).2]; simp
    · simp
    · simp
  exact ⟨by rwa [hkeep], .inr (by rwa [hkeep])⟩

theorem step_keepsTransport {s t : State} (h : step s = .next t) : KeepsTransport s t := by
  obtain ⟨u, hu, hcase⟩ := step_next h
  obtain ⟨uwire, -, -, -, -, -, -, -, utransport, -⟩ := hu.fields
  have upath : u.openPath = s.openPath := by rw [hu]
  obtain rfl | ⟨px, rest, -, -, hrow⟩ | ⟨w, i, -, -, hexec, -⟩ := hcase
  · exact ⟨.inl utransport, .inl uwire⟩
  · exact .of_send (.inl utransport) (onlyAnswers_rowDone rest) hrow
  · obtain ⟨r, rfl⟩ | ⟨call, rest, -, -, rfl⟩ | ⟨-, -, -, rfl⟩ | ⟨k, v, items, done, -, -, ⟨-, hv⟩, hdone, hsend⟩ :=
      exec_next hexec
    · exact ⟨.inl utransport, .inl uwire⟩
    · exact ⟨.inl utransport, .inl uwire⟩
    · exact ⟨.inl utransport, .inl uwire⟩
    · rw [utransport, upath] at hv
      exact .of_send hv hdone.onlyAnswers hsend

/-! ### Every step keeps the invariant -/

/-- Only a completed SetOrientation moves DisplayState, and to the dimensions of its orientation. -/
theorem step_display {s t : State} (h : step s = .next t) :
    t.display = s.display ∨ ∃ o reverse, t.display = some (displayFor o reverse) := by
  by_cases hd : t.display = s.display
  · exact .inl hd
  · obtain ⟨o, reverse, -, -, hnew⟩ := displayChangedOnlyBySetOrientation s t h hd
    exact .inr ⟨o, reverse, by rw [hnew, displayFor_eq]⟩

theorem State.Inv.step_dimensioned {s t : State} (hs : s.Inv) (h : step s = .next t) (d : DisplayState)
    (hd : t.display = some d) : d = displayFor d.orientation d.reverse := by
  obtain hsame | ⟨o, reverse, hnew⟩ := step_display h
  · exact hs.dimensioned d (hsame.symm.trans hd)
  · rw [hnew] at hd
    cases hd
    rfl

theorem State.Inv.step_ready {s t : State} (hs : s.Inv) (h : step s = .next t) (ht : t.session = .ready) :
    t.display ≠ none ∧ initKinds <+: t.kinds := by
  by_cases hsession : t.session = s.session
  · obtain ⟨hdisplay, hinit⟩ := hs.ready (hsession.symm.trans ht)
    obtain ⟨more, hwire, -⟩ := wireOnlyGrows s t h
    refine ⟨?_, hinit.trans ⟨more.map Written.kind, by simp [State.kinds, hwire]⟩⟩
    obtain hsame | ⟨o, reverse, hnew⟩ := step_display h
    · rwa [hsame]
    · simp [hnew]
  · obtain ⟨-, -, -, hkinds, hdisplay⟩ | ⟨-, hfailed, -⟩ := sessionTransitions s t h hsession
    · exact ⟨by simp [hdisplay], by rw [hkinds]; exact List.prefix_rfl⟩
    · rw [ht] at hfailed; cases hfailed

theorem State.Inv.step_opened {s t : State} (hs : s.Inv) (h : step s = .next t) (params : TransportParams)
    (hp : t.transport = some params) : params = TransportParams.host params.path := by
  obtain hkept | hopened := (step_keepsTransport h).params
  · exact hs.opened params (hkept.symm.trans hp)
  · rw [hp, Option.some.injEq] at hopened
    cases ht : s.transport with
    | none => rw [hopened, ht]; rfl
    | some old =>
      obtain rfl : params = old := by rw [hopened, ht]; rfl
      exact hs.opened params ht

theorem State.Inv.step_openForWriting {s t : State} (hs : s.Inv) (h : step s = .next t) (hw : t.wire ≠ []) :
    t.transport ≠ none := by
  obtain ⟨hparams, hwire | hopen⟩ := step_keepsTransport h
  · obtain hkept | hopened := hparams
    · rw [hkept]; exact hs.openForWriting (hwire ▸ hw)
    · simp [hopened]
  · exact hopen

/-- Settles O38: each part of the invariant is kept for a reason of its own. -/
theorem stepKeepsInvariant : Obligations.StepKeepsInvariant := fun _ _ hs h =>
  ⟨State.Ordered.step hs.ordered h, hs.step_dimensioned h, hs.step_ready h, hs.step_opened h, hs.step_openForWriting h⟩

/-! ### What the order says of the messages on the wire -/

/-- A list that the automaton takes, it takes up to every place in it, and goes on from there. -/
theorem Phase.run_append_cons {p q : Phase} {pre post : List MessageKind} {k : MessageKind}
    (h : p.run (pre ++ k :: post) = .next q) :
    ∃ r r', p.run pre = .next r ∧ r.next k = .next r' ∧ r'.run post = .next q := by
  induction post using List.reverseRecOn generalizing q with
  | nil =>
    obtain ⟨r, hr, hk⟩ := Phase.run_append_next h
    exact ⟨r, q, hr, hk, rfl⟩
  | append_singleton post k' ih =>
    rw [← List.cons_append, ← List.append_assoc] at h
    obtain ⟨q', hq', hk'⟩ := Phase.run_append_next h
    obtain ⟨r, r', hr, hk, hpost⟩ := ih hq'
    exact ⟨r, r', hr, hk, (Phase.run_append hpost k').trans hk'⟩

/-- How a wire ends that stands inside a handshake or among a bitmap's rows. -/
def Phase.EndOf (ks : List MessageKind) : Phase → Prop
  | .bootGeometry => ks.getLast? = some .geometryReset
  | .geometrySent => ks.getLast? = some .geometryReset
  | .rows more => ∃ pre n, ks = pre ++ .bitmapHeader (n + more + 1) :: List.replicate n .row
  | _ => True

/-- After a header, or a row, the wire ends as the rows still due say. -/
theorem Phase.endOf_afterRow {pre : List MessageKind} {n more : Nat} :
    (Phase.afterRow more).EndOf (pre ++ .bitmapHeader (n + more) :: List.replicate n .row) := by
  cases more with
  | zero => trivial
  | succ more => exact ⟨pre, n, rfl⟩

theorem Phase.run_start_endOf {ks : List MessageKind} {p : Phase} (h : Phase.start.run ks = .next p) : p.EndOf ks := by
  induction ks using List.reverseRecOn generalizing p with
  | nil => cases h; trivial
  | append_singleton ks k ih =>
    obtain ⟨r, hr, hk⟩ := Phase.run_append_next h
    cases r with
    | start => obtain ⟨rfl, rfl⟩ := Phase.start_next.mp hk; trivial
    | resetSent => obtain ⟨rfl, rfl⟩ := Phase.resetSent_next.mp hk; exact List.getLast?_concat
    | bootGeometry => obtain ⟨rfl, rfl⟩ := Phase.bootGeometry_next.mp hk; trivial
    | geometrySent => obtain ⟨-, rfl⟩ := Phase.geometrySent_next.mp hk; trivial
    | idle =>
      cases k with
      | reset | setOrientation | row => cases hk
      | clear | toBlack | screenOff | screenOn => cases hk; trivial
      | geometryReset => cases hk; exact List.getLast?_concat
      | bitmapHeader n => cases hk; simpa using Phase.endOf_afterRow (pre := ks) (n := 0) (more := n)
    | rows more =>
      obtain ⟨rfl, rfl⟩ := Phase.rows_next.mp hk
      obtain ⟨pre, n, rfl⟩ := ih hr
      rw [List.append_assoc, List.cons_append, ← List.replicate_succ', Nat.add_right_comm]
      exact Phase.endOf_afterRow

/-- SetOrientation stands only where a geometry reset is the last message (70_reset_and_hazards.md R179). -/
theorem Phase.next_setOrientation {p q : Phase} {o : Orientation} {reverse : Bool}
    (h : p.next (.setOrientation o reverse) = .next q) : p = .bootGeometry ∨ p = .geometrySent := by
  cases p with
  | bootGeometry => exact .inl rfl
  | geometrySent => exact .inr rfl
  | start | resetSent | idle | rows => cases h

/-- A row stands only among a bitmap's rows (R177). -/
theorem Phase.next_row {p q : Phase} (h : p.next .row = .next q) : ∃ more, p = .rows more := by
  cases p with
  | rows more => exact ⟨more, rfl⟩
  | start | resetSent | bootGeometry | geometrySent | idle => cases h

/-- Reset is taken at the start alone. -/
theorem Phase.next_reset {p q : Phase} (h : p.next .reset = .next q) : p = .start := by
  cases p with
  | start => rfl
  | resetSent | bootGeometry | geometrySent | idle | rows => cases h

/-- A header is taken between two operations alone. -/
theorem Phase.next_bitmapHeader {p q : Phase} {n : Nat} (h : p.next (.bitmapHeader n) = .next q) :
    q = Phase.afterRow n := by
  cases p with
  | idle => cases h; rfl
  | start | resetSent | bootGeometry | geometrySent | rows => cases h

/-- While `n` rows are due, nothing but rows is taken before the last of them. -/
theorem Phase.run_afterRow {n : Nat} {q : Phase} {ks : List MessageKind} (h : (Phase.afterRow n).run ks = .next q) :
    ∃ m more, ks = List.replicate m .row ++ more ∧ m ≤ n ∧ (more = [] ∨ m = n) := by
  induction n generalizing ks with
  | zero => exact ⟨0, ks, rfl, le_rfl, .inr rfl⟩
  | succ n ih =>
    cases ks with
    | nil => exact ⟨0, [], rfl, Nat.zero_le _, .inl rfl⟩
    | cons k ks =>
      obtain ⟨r, r', hr, hk, hks⟩ := Phase.run_append_cons (pre := []) h
      cases hr
      obtain ⟨rfl, rfl⟩ := Phase.rows_next.mp hk
      obtain ⟨m, more, rfl, hm, hmore⟩ := ih hks
      exact ⟨m + 1, more, rfl, Nat.succ_le_succ hm, hmore.imp_right (congrArg Nat.succ)⟩

/-- Settles O39: cut the wire at the message in question; the phase before it says what the messages before it are, and
the phase after it which may follow. -/
theorem invariantMeansOrderRules : Obligations.InvariantMeansOrderRules := by
  intro s hs
  obtain ⟨p, hp, -⟩ := hs.ordered
  refine ⟨?_, fun pre post o reverse hk => ?_, fun pre post h hk => ?_, fun pre post hk => ?_, fun pre post hk => ?_⟩
  · obtain ⟨-, hk⟩ | ⟨-, hk⟩ | ⟨-, hk⟩ | ⟨hinit, -⟩ := Phase.run_start hp
    · exact .inl (by rw [hk]; exact List.nil_prefix)
    · exact .inl (by rw [hk]; exact ⟨_, rfl⟩)
    · exact .inl (by rw [hk]; exact ⟨_, rfl⟩)
    · exact .inr hinit
  all_goals
    rw [State.phase, hk] at hp
    obtain ⟨r, r', hr, hnext, hpost⟩ := Phase.run_append_cons hp
  · obtain rfl | rfl := Phase.next_setOrientation hnext
    · exact Phase.run_start_endOf hr
    · exact Phase.run_start_endOf hr
  · obtain rfl := Phase.next_bitmapHeader hnext
    exact Phase.run_afterRow hpost
  · obtain ⟨more, rfl⟩ := Phase.next_row hnext
    obtain ⟨pre', n, hpre⟩ := Phase.run_start_endOf hr
    exact ⟨pre', _, n, hpre, by omega⟩
  · obtain rfl := Phase.next_reset hnext
    simpa using Phase.run_start hr

/-! ### Messages that may not stand next -/

/-- A word whose message the phase refuses is refused so. -/
theorem runWord_refused_of_phase {s : State} {i : Instr} {k : MessageKind} {p : Phase} {r : Refusal}
    (hs : s.session ≠ .failed) (hh : s.hung = false) (hk : s.messageOf i = some k) (hp : s.phase = .next p)
    (hq : p.next k = .refused r) : runWord (encode i) s = .refused r :=
  runWord_of_refused (decode_encode i) (State.admits_refused hk hs hh hp hq)

/-- A word whose message is a fault in the phase is that fault. -/
theorem runWord_fault_of_phase {s : State} {i : Instr} {k : MessageKind} {p : Phase} {f : Fault}
    (hs : s.session ≠ .failed) (hh : s.hung = false) (hk : s.messageOf i = some k) (hp : s.phase = .next p)
    (hq : p.next k = .fault f) : runWord (encode i) s = .fault f :=
  runWord_of_fault (decode_encode i) (State.admits_fault hk hs hh hp hq)

/-- Settles O35: each beginning of init is a phase that takes init's next message alone. -/
theorem messagesBeforeInitRefused : Obligations.MessagesBeforeInitRefused := by
  intro s i k _ hs hh hk
  refine ⟨fun hkinds hne => ?_, fun hkinds hne => ?_, fun hkinds hne => ?_⟩
  · exact runWord_refused_of_phase (p := .start) hs hh hk (by rw [State.phase, hkinds]; rfl) (if_neg hne)
  · exact runWord_refused_of_phase (p := .resetSent) hs hh hk (by rw [State.phase, hkinds]; rfl) (if_neg hne)
  · exact runWord_refused_of_phase (p := .bootGeometry) hs hh hk (by rw [State.phase, hkinds]; rfl) (if_neg hne)

/-- No instruction is a row. -/
theorem State.messageOf_ne_row (s : State) (i : Instr) : s.messageOf i ≠ some .row := by
  cases i with
  | packCmd | packU16 | packColor | reservedOp11 | setBrightness => exact nofun
  | reset | clear | toBlack | screenOff | screenOn | geometryReset => exact nofun
  | setOrientation => simp only [State.messageOf]; split <;> exact nofun
  | displayBitmap =>
    simp only [State.messageOf]
    split
    · exact nofun
    · split <;> exact nofun

/-- Inside a handshake every message but SetOrientation is of a second operation. -/
theorem Phase.geometrySent_next_fault {k : MessageKind} (h : ∀ o reverse, k ≠ .setOrientation o reverse) :
    Phase.geometrySent.next k = .fault .operationInFlight := by
  cases k with
  | setOrientation o reverse => exact absurd rfl (h o reverse)
  | _ => rfl

/-- A device command that would write a message is the write of that message, but for DisplayBitmap, which first looks
at its image, and Reset, which first opens the Transport. -/
theorem exec_eq_sendCommand {s : State} {i : Instr} {k : MessageKind} (hk : s.messageOf i = some k)
    (hi : ∀ x y x2 y2, i ≠ .displayBitmap x y x2 y2) (hreset : i ≠ .reset) :
    ∃ items done, exec i s = s.sendCommand k items done := by
  cases i with
  | packCmd | packU16 | packColor | reservedOp11 | setBrightness => cases hk
  | reset => exact absurd rfl hreset
  | clear | toBlack | screenOff | screenOn | geometryReset => cases hk; exact ⟨_, _, rfl⟩
  | setOrientation p1 p2 p3 p4 after =>
    cases ho : orientationOperand p1 p2 p3 p4 after with
    | none => simp [State.messageOf, ho] at hk
    | some or =>
      obtain rfl : .setOrientation or.1 or.2 = k := by simpa [State.messageOf, ho] using hk
      exact ⟨_, _, exec_setOrientation_operand ho s⟩
  | displayBitmap x y x2 y2 => exact absurd rfl (hi x y x2 y2)

/-- Settles O36: the phase stops the word before its meaning is asked; while rows are due the meaning stops too. -/
theorem oneOperationAtATime : Obligations.OneOperationAtATime := by
  refine ⟨fun s i k more _ hs hh hk hp => ?_, fun s i k _ hs hh hk hp hne => ?_,
    fun s o reverse slot hs hh hp => ⟨?_, ?_⟩, fun s i k hr _ hk hi hreset => ?_⟩
  · have hrow : k ≠ .row := fun h => s.messageOf_ne_row i (h ▸ hk)
    exact runWord_fault_of_phase hs hh hk hp (if_neg hrow)
  · exact runWord_fault_of_phase hs hh hk hp (Phase.geometrySent_next_fault hne)
  · obtain ⟨p1, p2, p3, p4, after, hinstr, hoperand⟩ := orientationInstr_operand slot o reverse
    have hk : s.messageOf (orientationInstr slot o reverse) = some (.setOrientation o reverse) := by
      simp [State.messageOf, hinstr, hoperand]
    exact runWord_refused_of_phase hs hh hk hp rfl
  · exact runWord_refused_of_phase (k := .reset) hs hh rfl hp rfl
  · obtain ⟨items, done, hexec⟩ := exec_eq_sendCommand hk hi hreset
    rw [hexec, State.sendCommand_inRaster hr]

/-! ### A closed Transport -/

/-- A command's message that nothing else stops is refused while the Transport is closed (log entry 9). -/
theorem State.sendCommand_closed {s : State} (hs : s.session ≠ .failed) (hh : s.hung = false) (hr : s.raster = [])
    (ht : s.transport = none) (k : MessageKind) (items : List Item) (done : State → State) :
    s.sendCommand k items done = .refused .transportClosed := by
  rw [State.sendCommand_eq hr]
  simp only [State.send, State.writeBlocked_eq_none.mpr ⟨hs, hh⟩, ht]

/-- Settles O55: each of them is its message's write, and that of a drawable image its header's. -/
theorem closedTransportRefused : Obligations.ClosedTransportRefused := by
  refine ⟨fun s i k hs hh hr ht hk hi hreset => ?_, fun s x y img rest hs hh hr ht hb himg => ?_⟩
  · obtain ⟨items, done, hexec⟩ := exec_eq_sendCommand hk hi hreset
    rw [hexec, State.sendCommand_closed hs hh hr ht]
  · obtain ⟨-, -, hwidths⟩ := id himg
    exact (exec_displayBitmap_drawable hb rfl himg (Image.fills_rectangle hwidths x y)).trans
      (State.sendCommand_closed (s := { s with bitmaps := rest }) hs hh hr ht _ _ _)

end Sys2Proof.Machine
end
